-- ==== Sys2Proof/Word.lean ====
section
/-! DEFINITION. The two word types of the block (00_scope R10): a byte and a 16-bit word. -/

namespace Sys2Proof

/-- A byte: one entry of a buffer, one character of a frame (00_scope R10). -/
abbrev Byte := BitVec 8

/-- A 16-bit unsigned word: the spec's DataWord, address, count and CRC (00_scope R10, R14). -/
abbrev Word := BitVec 16

end Sys2Proof
end

