-- ==== Sys2Proof/Config.lean ====
section
/-! DEFINITION. What is fixed for the machine: the constants of 00_scope R7 and R8, the vocabulary in which the
environment's moves are written (00_scope R13), and the values the spec leaves open, each an uninterpreted constant. -/

namespace Sys2Proof

/-! ## Names -/

/-- The four indexable buffers (20_memory R60); the queues RXQ and TXQ cannot be indexed (R64). -/
inductive Space where
  | wdata | rdata | req | rep
  deriving DecidableEq, Repr, Inhabited

/-- The registers of 10_state R44, in the order of their numbers. -/
inductive Reg where
  | ctrl | op | slave | maddr | count | value | timeoutMs | cfg | status | rxn | resLen | excCode | crcOut
  | rxCount | txCount | ph | reqLen | repLen | ts
  deriving DecidableEq, Repr, Inhabited

/-! ## What the environment can do -/

/-- A host access (10_state R44). A register access carries the register's name, so no access to a register number
that does not exist can be written down; a buffer access carries an index, which may be outside the buffer. What a write
of an entry of RDATA, REQ or REP does the spec leaves open: DESIGN CHOICE, it is ignored; log 27. -/
inductive HostAction where
  | write (r : Reg) (v : BitVec 64)
  | writeBuffer (sp : Space) (i : Nat) (b : Byte)
  | read (r : Reg)
  | readBuffer (sp : Space) (i : Nat)
  deriving DecidableEq, Repr, Inhabited

/-- The two steps the line agent takes on its own (41_transport_port R168, R175). -/
inductive LineAction where
  | deliver (d : Byte)
  | transmit
  deriving DecidableEq, Repr, Inhabited

/-- The outcome of OPEN (41_transport_port R161): the only port operation with a third outcome. -/
inductive OpenAnswer where
  | ok | fault | mismatch
  deriving DecidableEq, Repr, Inhabited

/-- The line agent's answers for one sequencer step (41_transport_port R161). Each phase looks only at the answer of
the port operation it starts, so every value of this type is an admissible draw:
`openAnswer` is OPEN's outcome; `fault` makes FLUSH, WRITE, DRAIN, or the READ phase's POP or wait end in `fault`;
`accepts` bounds the `k` of WRITE (`k` is the smaller of it and REQ_LEN, R166); `takesByte` settles the READ race of
42_sequencer R218(b). -/
structure Draw where
  openAnswer : OpenAnswer := .ok
  fault : Bool := false
  accepts : Nat := 256
  takesByte : Bool := true
  deriving DecidableEq, Repr, Inhabited

/-- The counter strobes RST_RXCNT and RST_TXCNT (10_state R28). -/
structure Strobes where
  rx : Bool := false
  tx : Bool := false
  deriving DecidableEq, Repr, Inhabited

/-- One step of one agent (00_scope R13). A sequencer step carries the line agent's draw and the counter strobes the
host asserts in the very same step (10_state R28: the strobe wins). -/
inductive Event where
  | host (a : HostAction)
  | line (a : LineAction)
  | time (t : Nat)
  | sequencer (d : Draw) (strobes : Strobes)
  | reset
  deriving DecidableEq, Repr, Inhabited

/-- The parity set (00_scope R7). -/
inductive Parity where
  | none | odd | even
  deriving DecidableEq, Repr, Inhabited

/-- The line settings of a transport (00_scope R7, 10_state R35). -/
structure TransportConfig where
  baud : Nat
  parity : Parity
  dataBits : Nat
  stopBits : Nat
  deriving DecidableEq, Repr, Inhabited

namespace Config

/-! ## Constants of 00_scope R7 and R8 -/

/-- `T_IF`, the inter-frame timeout in microseconds. -/
abbrev interFrame : Nat := 3000

/-- The legal baud rates, in the order of CFG.BAUD (10_state R35). -/
def baudRates : List Nat := [1200, 2400, 4800, 9600, 19200, 38400, 57600, 115200]

/-- `CRC_INIT`. -/
def crcInit : Word := 0xFFFF

/-- `CRC_POLY`; PRESUMED, log 16: the spec supplies it from general knowledge (93 G1). -/
def crcPoly : Word := 0xA001

/-- `CRC_ITER`. -/
def crcIter : Nat := 8

/-- `CRC_MIN_FRAME`. -/
abbrev crcMinFrame : Nat := 3

/-- `MAX_COILS`, `MAX_RD_REGS`, `MAX_WR_REGS`, `MAX_BYTES`. -/
abbrev maxCoils : Nat := 2000
/-- See `maxCoils`. -/
abbrev maxReadRegisters : Nat := 125
/-- See `maxCoils`. -/
abbrev maxWriteRegisters : Nat := 123
/-- See `maxCoils`. -/
abbrev maxBytes : Nat := 249

/-- `MAX_ADU`: the longest frame, and the size of REQ and REP. -/
abbrev maxAdu : Nat := 256

/-- The size of WDATA, which is also the bound on COUNT of the CRC unit commands (10_state R38, 43_operations R248). -/
abbrev wdataDepth : Nat := 256

/-- `RDATA_DEPTH`. -/
abbrev rdataDepth : Nat := 2000

/-! ## What the spec leaves open -/

/-- How far this implementation's `RXQ_DEPTH` exceeds its minimum of 256 (00_scope R8, 93 U12); log 12. -/
opaque rxqExtra : Nat

/-- The least `RXQ_DEPTH` may be (00_scope R8). -/
abbrev rxqMinDepth : Nat := 256

/-- `RXQ_DEPTH`: at least its minimum, otherwise open; log 12. -/
def rxqDepth : Nat := rxqMinDepth + rxqExtra

/-- What the agents do once the pinned agenda has run out (00_scope R13, 93 U9, U10, U11); log 3. -/
opaque freeEvent : Nat → Event

/-- The contents of a buffer entry that nothing has written since the given reset (10_state R46, 93 U3); log 7. -/
opaque freeByte : Nat → Space → Nat → Byte

/-- What a host read of a buffer entry returns at the given move when the spec leaves it open (93 U2, U3); log 8, log 9. -/
opaque staleByte : Nat → Space → Nat → Byte

/-- What a host read of a register returns when the spec leaves it open (93 U2, 10_state R46 for TS); log 8, log 9. -/
opaque staleRegister : Nat → Reg → BitVec 64

/-- What a frame byte becomes on the wire when the open configuration has fewer than 8 data bits (93 U6); log 13. -/
opaque narrowByte : Byte → Byte → Byte

end Config

end Sys2Proof
end

