-- ==== Sys2Proof/Syntax.lean ====
section
/-! DEFINITION. The block's instruction set: the nine host commands of 30_encoding R94, one constructor per row of
opcode_table.json. -/

namespace Sys2Proof

/-- A host command with the operand registers it reads (30_encoding R94 and the call syntax of R125). WDATA, which
wrRegisters, wrBytes and the CRC unit commands also read, stays a buffer of the machine. -/
inductive Instr where
  /-- OP 0x01, 43_operations R241. -/
  | rdCoils (slave : Byte) (maddr count : Word) (timeout : BitVec 32)
  /-- OP 0x03, 43_operations R242. -/
  | rdRegisters (slave : Byte) (maddr count : Word) (timeout : BitVec 32)
  /-- OP 0x05, 43_operations R243. -/
  | wrCoil (slave : Byte) (maddr value : Word) (timeout : BitVec 32)
  /-- OP 0x06, 43_operations R244. -/
  | wrRegister (slave : Byte) (maddr value : Word) (timeout : BitVec 32)
  /-- OP 0x10, 43_operations R245. -/
  | wrRegisters (slave : Byte) (maddr count : Word) (timeout : BitVec 32)
  /-- OP 0x41, 43_operations R246. -/
  | rdBytes (slave : Byte) (maddr count : Word) (timeout : BitVec 32)
  /-- OP 0x42, 43_operations R247. -/
  | wrBytes (slave : Byte) (maddr count : Word) (timeout : BitVec 32)
  /-- OP 0xF0, 43_operations R248. -/
  | crcCompute (count : Word)
  /-- OP 0xF1, 43_operations R249. -/
  | crcValidate (count : Word)
  deriving DecidableEq, Repr, Inhabited

end Sys2Proof
end

