-- ==== Sys2Proof/Decode.lean ====
section
/-! DEFINITION. The command word and its decoder and encoder. A command is the value of OP and of the operand registers
(30_encoding R94); its word is those registers in the order of their numbers (10_state R44, 1 to 6), each high byte
first: twelve bytes. That byte order is the model's, DESIGN CHOICE, log 1. -/

namespace Sys2Proof

/-! ## Splitting and joining (00_scope R10) -/

/-- `hi8(w)`. -/
def hi8 (w : Word) : Byte := w.extractLsb' 8 8

/-- `lo8(w)`. -/
def lo8 (w : Word) : Byte := w.extractLsb' 0 8

/-- The pair `a, b` read as one word, `a` the high byte (00_scope R10). -/
def cat8 (a b : Byte) : Word := a ++ b

/-- A 16-bit field as it lies in a buffer, high byte at the lower index (30_encoding R92, 20_memory R67). -/
def be16 (w : Word) : List Byte := [hi8 w, lo8 w]

/-- TIMEOUT_MS as four bytes, high byte first (log 1). -/
def be32 (t : BitVec 32) : List Byte :=
  [t.extractLsb' 24 8, t.extractLsb' 16 8, t.extractLsb' 8 8, t.extractLsb' 0 8]

/-- Four bytes read as TIMEOUT_MS, the first the highest (log 1). -/
def cat32 (a b c d : Byte) : BitVec 32 := a ++ b ++ c ++ d

/-! ## The decoder -/

/-- Why bytes are no instruction. -/
inductive DecodeError where
  /-- OP is none of the nine values (30_encoding R120). -/
  | illegalOp (op : Byte)
  /-- The byte sequence has not the length the format gives it. -/
  | badLength (n : Nat)
  /-- A frame whose trailing CRC does not match (40_crc16 R140). -/
  | badCrc
  /-- A frame field holds a value no request carries (30_encoding R122). -/
  | badField
  deriving DecidableEq, Repr

/-- The command named by OP with the operands the other registers hold (30_encoding R94). -/
def decodeOperands (op slave : Byte) (maddr count value : Word) (timeout : BitVec 32) : Except DecodeError Instr :=
  if op = 0x01 then .ok (.rdCoils slave maddr count timeout)
  else if op = 0x03 then .ok (.rdRegisters slave maddr count timeout)
  else if op = 0x05 then .ok (.wrCoil slave maddr value timeout)
  else if op = 0x06 then .ok (.wrRegister slave maddr value timeout)
  else if op = 0x10 then .ok (.wrRegisters slave maddr count timeout)
  else if op = 0x41 then .ok (.rdBytes slave maddr count timeout)
  else if op = 0x42 then .ok (.wrBytes slave maddr count timeout)
  else if op = 0xF0 then .ok (.crcCompute count)
  else if op = 0xF1 then .ok (.crcValidate count)
  else .error (.illegalOp op)

/-- The decoder, total on any bytes. -/
def decode : List Byte → Except DecodeError Instr
  | [op, slave, mh, ml, ch, cl, vh, vl, t3, t2, t1, t0] =>
      decodeOperands op slave (cat8 mh ml) (cat8 ch cl) (cat8 vh vl) (cat32 t3 t2 t1 t0)
  | bytes => .error (.badLength bytes.length)

/-! ## The encoder -/

/-- The OP value of a command (30_encoding R94, opcode_table.json). -/
def Instr.opcode : Instr → Byte
  | .rdCoils .. => 0x01
  | .rdRegisters .. => 0x03
  | .wrCoil .. => 0x05
  | .wrRegister .. => 0x06
  | .wrRegisters .. => 0x10
  | .rdBytes .. => 0x41
  | .wrBytes .. => 0x42
  | .crcCompute .. => 0xF0
  | .crcValidate .. => 0xF1

/-- SLAVE of a command, 0 where the command does not read it (30_encoding R94). -/
def Instr.slaveField : Instr → Byte
  | .rdCoils a _ _ _ | .rdRegisters a _ _ _ | .wrCoil a _ _ _ | .wrRegister a _ _ _
  | .wrRegisters a _ _ _ | .rdBytes a _ _ _ | .wrBytes a _ _ _ => a
  | .crcCompute _ | .crcValidate _ => 0

/-- MADDR of a command, 0 where the command does not read it (30_encoding R94). -/
def Instr.maddrField : Instr → Word
  | .rdCoils _ m _ _ | .rdRegisters _ m _ _ | .wrCoil _ m _ _ | .wrRegister _ m _ _
  | .wrRegisters _ m _ _ | .rdBytes _ m _ _ | .wrBytes _ m _ _ => m
  | .crcCompute _ | .crcValidate _ => 0

/-- COUNT of a command, 0 where the command does not read it (30_encoding R94). -/
def Instr.countField : Instr → Word
  | .rdCoils _ _ n _ | .rdRegisters _ _ n _ | .wrRegisters _ _ n _ | .rdBytes _ _ n _ | .wrBytes _ _ n _ => n
  | .wrCoil .. | .wrRegister .. => 0
  | .crcCompute n | .crcValidate n => n

/-- VALUE of a command, 0 where the command does not read it (30_encoding R94). -/
def Instr.valueField : Instr → Word
  | .wrCoil _ _ v _ | .wrRegister _ _ v _ => v
  | .rdCoils .. | .rdRegisters .. | .wrRegisters .. | .rdBytes .. | .wrBytes .. | .crcCompute _ | .crcValidate _ => 0

/-- TIMEOUT_MS of a command, 0 where the command does not read it (30_encoding R94). -/
def Instr.timeoutField : Instr → BitVec 32
  | .rdCoils _ _ _ t | .rdRegisters _ _ _ t | .wrCoil _ _ _ t | .wrRegister _ _ _ t
  | .wrRegisters _ _ _ t | .rdBytes _ _ _ t | .wrBytes _ _ _ t => t
  | .crcCompute _ | .crcValidate _ => 0

/-- The command word of a command, registers it does not read as zero. -/
def encode (i : Instr) : List Byte :=
  i.opcode :: i.slaveField :: (be16 i.maddrField ++ be16 i.countField ++ be16 i.valueField ++ be32 i.timeoutField)

/-! ## The host's view of a command word -/

/-- Byte `k` of the bit string `w` whose bits from `nbits` up are zero. -/
def tableByte (nbits w k : Nat) : Byte := BitVec.ofNat 8 ((w % 2 ^ nbits) / 2 ^ (8 * k))

/-- The twelve bytes of the command word whose low `nbits` bits are `w`, OP the first byte. -/
def tableBytes (nbits w : Nat) : List Byte := (List.range 12).map (tableByte nbits w)

/-- The command the decoder reads from the bits the opcode table gives a row: OP is bits 7..0 (the table's match and
mask), the operand registers above it zero where the table gives them no bits. -/
def decodeTableWord (nbits w : Nat) : Option Instr := (decode (tableBytes nbits w)).toOption

end Sys2Proof
end

