-- ==== Sys2Proof/Machine/Crc.lean ====
section
/-! DEFINITION. The CRC16 unit (40_crc16): the generator, the checker, and the table-driven form R137 says is the same
function. No state: CRC_ACC and CRC_OUT are written by the phases that use it. -/

namespace Sys2Proof.Machine

/-- `crc_bit` (40_crc16 R131). -/
def crcBit (a : Word) : Word := if a.getLsbD 0 then (a >>> 1) ^^^ Config.crcPoly else a >>> 1

/-- `n` bit steps. -/
def crcBits : Nat → Word → Word
  | 0, a => a
  | n + 1, a => crcBits n (crcBit a)

/-- `crc_byte` (40_crc16 R132): the byte enters the low 8 bits, then `CRC_ITER` bit steps. -/
def crcByte (a : Word) (d : Byte) : Word := crcBits Config.crcIter (a ^^^ d.setWidth 16)

/-- The generator run from accumulator `a` over `bs`. -/
def crcFrom (a : Word) (bs : List Byte) : Word := bs.foldl crcByte a

/-- `compute` (40_crc16 R133). -/
def crc16 (bs : List Byte) : Word := crcFrom Config.crcInit bs

/-- A CRC as it lies in a frame, low byte first (20_memory R67(b), 30_encoding R93). -/
def crcField (c : Word) : List Byte := [lo8 c, hi8 c]

/-- `append` (40_crc16 R138). -/
def appendCrc (bs : List Byte) : List Byte := bs ++ crcField (crc16 bs)

/-- The bytes of a frame before its CRC field. -/
def frameBody (f : List Byte) : List Byte := f.take (f.length - 2)

/-- The CRC a frame carries, its last byte the high byte (40_crc16 R140); meaningless below two bytes. -/
def receivedCrc (f : List Byte) : Word :=
  match f.drop (f.length - 2) with
  | [lo, hi] => cat8 hi lo
  | _ => 0

/-- The CRC `validate` computes: none when the frame is shorter than `CRC_MIN_FRAME` (40_crc16 R140). -/
def computedCrc (f : List Byte) : Option Word :=
  if f.length < Config.crcMinFrame then none else some (crc16 (frameBody f))

/-- `validate` (40_crc16 R140): true is ok, false is CRCError. -/
def validate (f : List Byte) : Bool :=
  match computedCrc f with
  | none => false
  | some c => decide (receivedCrc f = c)

/-- One byte step of a table-driven unit (40_crc16 R137), `crcByte 0 d` being entry `d` of its table. -/
def crcTableByte (a : Word) (d : Byte) : Word := (a >>> 8) ^^^ crcByte 0 ((a ^^^ d.setWidth 16).setWidth 8)

/-- A table-driven `compute` (40_crc16 R137). -/
def crcTable (bs : List Byte) : Word := bs.foldl crcTableByte Config.crcInit

end Sys2Proof.Machine
end

