-- ==== Sys2Proof/Machine/State.lean ====
section
/-! DEFINITION. The state of one block instance (10_state R20), its reset, and the reasons a step can stop. -/

namespace Sys2Proof.Machine

/-- The values of PH (10_state R33); their numbers are in Flags.lean. -/
inductive Phase where
  | idle | check | init | flush | build | gapw | write | drain | gapr | read | vcrc | vid | extract | crcop
  deriving DecidableEq, Repr, Inhabited

/-- The values of XPORT (10_state R34). -/
inductive XPort where
  | uninitialized | opened | closed
  deriving DecidableEq, Repr, Inhabited

/-- The eight error kinds (60_exceptions R271). -/
inductive ErrorKind where
  | systemCall | consistency | bounds | request | timeout | crc | reply | timing
  deriving DecidableEq, Repr, Inhabited

/-- One event of the wire history (41_transport_port R175). -/
inductive WireEvent where
  | tx (d : Byte) (t : Nat)
  | rx (d : Byte) (t : Nat)
  deriving DecidableEq, Repr, Inhabited

/-- A buffer: its written entries, index and byte, indices strictly rising. An index not listed has never been written
since reset. -/
abbrev Memory := List Host.Cell

/-- The block, its inputs, and the model's own record of the environment. -/
structure State where
  /-- OP, R22 -/
  op : Byte
  /-- SLAVE, R23 -/
  slave : Byte
  /-- MADDR, R24 -/
  maddr : Word
  /-- COUNT, R25 -/
  count : Word
  /-- VALUE, R26 -/
  value : Word
  /-- TIMEOUT_MS, R27 -/
  timeoutMs : BitVec 32
  /-- CFG, R35 -/
  cfg : Byte
  /-- STATUS.BUSY, R29 -/
  busy : Bool
  /-- STATUS.DONE, R29 -/
  done : Bool
  /-- STATUS.ERR, R29; `none` is code 0 -/
  err : Option ErrorKind
  /-- STATUS.EXC, R29 -/
  exc : Bool
  /-- STATUS.XPORT, R34 -/
  xport : XPort
  /-- STATUS.TS_VALID, R40 -/
  tsValid : Bool
  /-- RXN, R30 -/
  rxn : BitVec 9
  /-- RES_LEN, R30 -/
  resLen : BitVec 11
  /-- EXC_CODE, R31 -/
  excCode : Byte
  /-- CRC_OUT, R32 -/
  crcOut : Word
  /-- RX_COUNT, R37 -/
  rxCount : BitVec 64
  /-- TX_COUNT, R37 -/
  txCount : BitVec 64
  /-- PH, R33 -/
  ph : Phase
  /-- REQ_LEN, R30 -/
  reqLen : BitVec 9
  /-- REP_LEN, R30 -/
  repLen : BitVec 9
  /-- TS, R40, in microseconds -/
  ts : Nat
  /-- CRC_ACC, R39, hidden -/
  crcAcc : Word
  /-- CFG_ACT, R36, hidden -/
  cfgAct : Byte
  /-- T0, R41, hidden -/
  t0 : Nat
  /-- DL, R41, hidden -/
  dl : Nat
  /-- RXQ, R42, hidden, head first -/
  rxq : List Byte
  /-- TXQ, R43, hidden, head first -/
  txq : List Byte
  /-- WDATA, R38 -/
  wdata : Memory
  /-- RDATA, R38 -/
  rdata : Memory
  /-- REQ, R38 -/
  req : Memory
  /-- REP, R38 -/
  rep : Memory
  /-- NOW, R45: an input -/
  now : Nat
  /-- the line agent's answers for the sequencer step being taken, 41_transport_port R161: an input -/
  draw : Draw
  /-- what the agents do next, oldest first; the model's own, log 3 -/
  agenda : List Event
  /-- how many events have been taken from `Config.freeEvent`; the model's own, log 3 -/
  draws : Nat
  /-- how many steps other than host reads have been taken; the model's own, log 8 -/
  moves : Nat
  /-- how many resets there have been; the model's own, log 7 -/
  resets : Nat
  /-- the wire history, oldest first; a ghost record, 41_transport_port R175, log 14 -/
  wire : List WireEvent
  /-- what the last host read returned; the model's own, log 15 -/
  hostSaw : BitVec 64
  deriving DecidableEq, Repr

/-- Why the machine stops with a fault. -/
inductive Fault where
  /-- Raised by a host access to an index its buffer has not (20_memory R60), and by a sequencer phase whose operands
  would take it outside a buffer, which no reachable state does (43_operations R251). Safe: log 11. -/
  | noSuchIndex (sp : Space)
  deriving DecidableEq, Repr

/-- Why a step is refused. -/
inductive Refusal where
  /-- Raised by exec for an instruction without a meaning; no arm raises it. Safe. -/
  | notModelled (mnemonic : String)
  /-- Raised by a host write to an operand register while BUSY = 1 (10_state R44, 93 U1). Safe: log 10. -/
  | operandWhileBusy (r : Reg)
  /-- Raised by a host write to WDATA while BUSY = 1 (10_state R44, 93 U1). Safe: log 10. -/
  | wdataWhileBusy
  /-- Raised by a CTRL.START while BUSY = 1 (42_sequencer R190, 93 U1). Safe: log 10. -/
  | startWhileBusy
  deriving DecidableEq, Repr

/-- The block right after reset (10_state R46, 70_reset_and_hazards R310). R46 leaves TS, T0, DL, CFG_ACT and the
buffers unspecified: log 6 and log 7; the inputs and the model's own fields: log 3 and log 6. -/
def State.reset : State where
  op := 0
  slave := 0
  maddr := 0
  count := 0
  value := 0
  timeoutMs := 0
  cfg := 0x74
  busy := false
  done := false
  err := none
  exc := false
  xport := .uninitialized
  tsValid := false
  rxn := 0
  resLen := 0
  excCode := 0
  crcOut := 0xFFFF
  rxCount := 0
  txCount := 0
  ph := .idle
  reqLen := 0
  repLen := 0
  ts := 0
  crcAcc := 0xFFFF
  cfgAct := 0
  t0 := 0
  dl := 0
  rxq := []
  txq := []
  wdata := []
  rdata := []
  req := []
  rep := []
  now := 0
  draw := {}
  agenda := []
  draws := 0
  moves := 0
  resets := 0
  wire := []
  hostSaw := 0

end Sys2Proof.Machine
end

