-- ==== Sys2Proof/Machine/Flags.lean ====
section
/-! DEFINITION. The numbers software sees: PH, ERR and XPORT codes, the STATUS word, the fields of CFG, the CTRL
strobes. -/

namespace Sys2Proof.Machine

/-- PH (10_state R33). -/
def Phase.code : Phase → BitVec 4
  | .idle => 0
  | .check => 1
  | .init => 2
  | .flush => 3
  | .build => 4
  | .gapw => 5
  | .write => 6
  | .drain => 7
  | .gapr => 8
  | .read => 9
  | .vcrc => 10
  | .vid => 11
  | .extract => 12
  | .crcop => 13

/-- XPORT (10_state R34). -/
def XPort.code : XPort → BitVec 2
  | .uninitialized => 0
  | .opened => 1
  | .closed => 2

/-- ERR of a kind (60_exceptions R271). -/
def ErrorKind.code : ErrorKind → BitVec 4
  | .systemCall => 1
  | .consistency => 2
  | .bounds => 3
  | .request => 4
  | .timeout => 5
  | .crc => 6
  | .reply => 7
  | .timing => 8

/-- The kinds that invalidate the transport (60_exceptions R271, R283). -/
def ErrorKind.invalidates : ErrorKind → Bool
  | .systemCall | .consistency => true
  | .bounds | .request | .timeout | .crc | .reply | .timing => false

/-- ERR (10_state R29): 0 is none. -/
def errCode : Option ErrorKind → BitVec 4
  | none => 0
  | some k => k.code

/-- STATUS (10_state R29), high field first: reserved, TS_VALID, XPORT, EXC, ERR, DONE, BUSY. -/
def statusWord (s : State) : BitVec 32 :=
  (0 : BitVec 22) ++ BitVec.ofBool s.tsValid ++ s.xport.code ++ BitVec.ofBool s.exc ++ errCode s.err
    ++ BitVec.ofBool s.done ++ BitVec.ofBool s.busy

/-- CFG.PARITY (10_state R35). -/
def parityField (c : Byte) : BitVec 2 := c.extractLsb' 3 2

/-- CFG.DBITS (10_state R35). -/
def dataBitsField (c : Byte) : BitVec 2 := c.extractLsb' 5 2

/-- CFG.BAUD (10_state R35). -/
def baudField (c : Byte) : BitVec 3 := c.extractLsb' 0 3

/-- The baud rate CFG names (10_state R35, 00_scope R7). -/
def baudRate (c : Byte) : Nat := Config.baudRates.getD (baudField c).toNat 0

/-- The parity CFG names; none for the reserved value 3, which no write stores (10_state R35). -/
def parityOf (c : Byte) : Option Parity := [Parity.none, .odd, .even][(parityField c).toNat]?

/-- The number of data bits CFG names, 5 to 8 (10_state R35). -/
def dataBits (c : Byte) : Nat := 5 + (dataBitsField c).toNat

/-- The number of stop bits CFG names, 1 or 2 (10_state R35). -/
def stopBits (c : Byte) : Nat := 1 + (c.getLsbD 7).toNat

/-- The line settings a value of CFG or CFG_ACT stands for (10_state R35, R36). -/
def transportConfig (c : Byte) : Option TransportConfig :=
  (parityOf c).map fun p => ⟨baudRate c, p, dataBits c, stopBits c⟩

/-- CFG after a host write of `new` over `old`: a reserved PARITY value leaves that field unchanged (10_state R35). -/
def mergeCfg (old new : Byte) : Byte :=
  if parityField new = 3 then (new &&& 0xE7) ||| (old &&& 0x18) else new

/-- CTRL.START of a written value (10_state R28). -/
def startBit (v : BitVec 64) : Bool := v.getLsbD 0

/-- CTRL.RST_RXCNT and CTRL.RST_TXCNT of a written value (10_state R28). -/
def strobesOf (v : BitVec 64) : Strobes := ⟨v.getLsbD 1, v.getLsbD 2⟩

end Sys2Proof.Machine
end

