-- ==== Sys2Proof/Machine/Ops.lean ====
section
/-! DEFINITION. The named operations over buffers and state: byte access, completion, raising an error (the block's
exception entry) and starting a command (its return), the timestamp, and taking the next event. -/

namespace Sys2Proof.Machine

/-! ## Memory -/

/-- The byte written at an index, none when nothing has written it. -/
def Memory.get? : Memory → Nat → Option Byte
  | [], _ => none
  | (k, v) :: m, a => if k = a then some v else Memory.get? m a

/-- Write one byte, keeping the indices rising. -/
def Memory.set : Memory → Nat → Byte → Memory
  | [], a, b => [(a, b)]
  | (k, v) :: m, a, b =>
      if a < k then (a, b) :: (k, v) :: m
      else if a = k then (a, b) :: m
      else (k, v) :: Memory.set m a b

/-- Write bytes at consecutive indices from `a`. -/
def Memory.setRange (m : Memory) (a : Nat) : List Byte → Memory
  | [] => m
  | b :: bs => Memory.setRange (m.set a b) (a + 1) bs

/-- Indices strictly rising from `lo` on and below `size`. -/
def Memory.wfFrom (lo size : Nat) : Memory → Bool
  | [] => true
  | (k, _) :: m => decide (lo ≤ k) && decide (k < size) && Memory.wfFrom (k + 1) size m

/-- The canonical form of a buffer of `size` entries. An unlisted index reads as no byte at all, so no entry can equal
what an unlisted index reads as; log 7. -/
def Memory.wf (size : Nat) (m : Memory) : Bool := Memory.wfFrom 0 size m

/-- The number of entries of a buffer (20_memory R60). -/
def spaceSize : Space → Nat
  | .wdata => Config.wdataDepth
  | .rdata => Config.rdataDepth
  | .req => Config.maxAdu
  | .rep => Config.maxAdu

/-- The contents of a buffer. -/
def State.buffer (s : State) : Space → Memory
  | .wdata => s.wdata
  | .rdata => s.rdata
  | .req => s.req
  | .rep => s.rep

/-- Replace the contents of a buffer. -/
def State.setBuffer (s : State) (sp : Space) (m : Memory) : State :=
  match sp with
  | .wdata => { s with wdata := m }
  | .rdata => { s with rdata := m }
  | .req => { s with req := m }
  | .rep => { s with rep := m }

/-- One byte of a buffer. Where nothing has written it since reset the value is free (10_state R46, 93 U3); log 7. -/
def readByte (sp : Space) (i : Nat) (s : State) : Byte :=
  ((s.buffer sp).get? i).getD (Config.freeByte s.resets sp i)

/-- `buf[off : off + n]` (00_scope R11), none when it reaches past the buffer's end. -/
def readRange (sp : Space) (off n : Nat) (s : State) : Option (List Byte) :=
  if off + n ≤ spaceSize sp then some ((List.range n).map fun k => readByte sp (off + k) s) else none

/-- `buf[off : off + len(bs)] <- bs`, none when it reaches past the buffer's end. -/
def writeRange (sp : Space) (off : Nat) (bs : List Byte) (s : State) : Option State :=
  if off + bs.length ≤ spaceSize sp then some (s.setBuffer sp ((s.buffer sp).setRange off bs)) else none

/-- Go on with the bytes of a range, or fault where the buffer has no such index. -/
def withRange (sp : Space) (off n : Nat) (s : State) (k : List Byte → Host.Outcome State Fault Refusal) :
    Host.Outcome State Fault Refusal :=
  match readRange sp off n s with
  | some bs => k bs
  | none => .fault (.noSuchIndex sp)

/-- Store bytes and go on, or fault where the buffer has no such index. -/
def withStore (sp : Space) (off : Nat) (bs : List Byte) (s : State) (k : State → Host.Outcome State Fault Refusal) :
    Host.Outcome State Fault Refusal :=
  match writeRange sp off bs s with
  | some s' => k s'
  | none => .fault (.noSuchIndex sp)

/-! ## Outcomes -/

/-- Change the next state, if there is one. -/
def onNext (f : State → State) : Host.Outcome State Fault Refusal → Host.Outcome State Fault Refusal
  | .next s => .next (f s)
  | .fault r => .fault r
  | .refused r => .refused r

/-! ## Start, completion, errors, timestamp -/

/-- START (42_sequencer R190). It is also the return from an error (60_exceptions R286): it clears DONE, ERR, EXC. -/
def start (s : State) : State :=
  { s with busy := true, done := false, err := none, exc := false, excCode := 0, rxn := 0, resLen := 0, reqLen := 0,
           repLen := 0, ph := .check }

/-- Completion without error (42_sequencer R232). -/
def completeOk (s : State) : State := { s with err := none, busy := false, done := true, ph := .idle }

/-- `raise` (60_exceptions R283): completion with an error, the transport invalidated by the two kinds that do so
(41_transport_port R172). TS, TS_VALID and the counters are kept. -/
def raise (k : ErrorKind) (s : State) : State :=
  { s with xport := if k.invalidates then .closed else s.xport
           rxq := if k.invalidates then [] else s.rxq
           txq := if k.invalidates then [] else s.txq
           err := some k, busy := false, done := true, ph := .idle }

/-- The timestamp update (42_sequencer R230). -/
def stamp (s : State) : State := { s with ts := s.now, tsValid := true }

/-- The counter strobes (10_state R28). -/
def clearCounters (r : Strobes) (s : State) : State :=
  { s with rxCount := if r.rx then 0 else s.rxCount, txCount := if r.tx then 0 else s.txCount }

/-- Reset (70_reset_and_hazards R310, R312): the block as `State.reset` has it, also while a command runs. What is no
state of the block goes on: the inputs, the environment's agenda, the wire history. The buffers' contents are free
again. -/
def resetBlock (s : State) : State :=
  { State.reset with now := s.now, draw := s.draw, agenda := s.agenda, draws := s.draws, moves := s.moves,
                     resets := s.resets + 1, wire := s.wire, hostSaw := s.hostSaw }

/-! ## The next event -/

/-- A host read: it has no side effect on the block (10_state R44, 20_memory R72). -/
def isRead : Event → Bool
  | .host (.read _) | .host (.readBuffer _ _) => true
  | .host (.write _ _) | .host (.writeBuffer _ _ _) | .line _ | .time _ | .sequencer _ _ | .reset => false

/-- The event that happens now: the head of the agenda, and an unknown one once the agenda has run out; log 3. -/
def pendingEvent (s : State) : Event :=
  match s.agenda with
  | e :: _ => e
  | [] => Config.freeEvent s.draws

/-- The state with that event taken off the agenda. -/
def afterEvent (s : State) : State :=
  { s with agenda := s.agenda.tail
           draws := if s.agenda.isEmpty then s.draws + 1 else s.draws
           moves := if isRead (pendingEvent s) then s.moves else s.moves + 1 }

end Sys2Proof.Machine
end

