-- ==== Sys2Proof/Machine/Operands.lean ====
section
/-! DEFINITION. The operand registers and the host's accesses to registers and buffers (10_state R44): the command word
the sequencer reads, register reads and writes, and the typed views of RDATA (20_memory R66). -/

namespace Sys2Proof.Machine

/-! ## The command word -/

/-- The command word as the registers hold it now (30_encoding R94; log 1). There are no latched copies (10_state R44):
every step of a command reads it anew. -/
def commandWord (s : State) : List Byte :=
  s.op :: s.slave :: (be16 s.maddr ++ be16 s.count ++ be16 s.value ++ be32 s.timeoutMs)

/-- The registers set from a command word's bytes. -/
def loadWord (byte : Nat → Byte) (s : State) : State :=
  { s with op := byte 0, slave := byte 1, maddr := cat8 (byte 2) (byte 3), count := cat8 (byte 4) (byte 5),
           value := cat8 (byte 6) (byte 7), timeoutMs := cat32 (byte 8) (byte 9) (byte 10) (byte 11) }

/-! ## Host reads -/

/-- A result register while a command runs reads as a free value (10_state R44, 93 U2); log 8. -/
def settledResult {w : Nat} (r : Reg) (v : BitVec w) (s : State) : BitVec 64 :=
  (if s.busy then (Config.staleRegister s.moves r).setWidth w else v).setWidth 64

/-- A host read of a register (10_state R44), zero-extended to 64 bits. -/
def readRegister (r : Reg) (s : State) : BitVec 64 :=
  match r with
  | .ctrl => 0
  | .op => s.op.setWidth 64
  | .slave => s.slave.setWidth 64
  | .maddr => s.maddr.setWidth 64
  | .count => s.count.setWidth 64
  | .value => s.value.setWidth 64
  | .timeoutMs => s.timeoutMs.setWidth 64
  | .cfg => s.cfg.setWidth 64
  | .status => (statusWord s).setWidth 64
  | .rxn => settledResult .rxn s.rxn s
  | .resLen => settledResult .resLen s.resLen s
  | .excCode => settledResult .excCode s.excCode s
  | .crcOut => settledResult .crcOut s.crcOut s
  | .rxCount => s.rxCount
  | .txCount => s.txCount
  | .ph => s.ph.code.setWidth 64
  | .reqLen => settledResult .reqLen s.reqLen s
  | .repLen => settledResult .repLen s.repLen s
  | .ts => if s.tsValid then BitVec.ofNat 64 s.ts else Config.staleRegister s.resets .ts

/-- How many entries of a buffer hold specified bytes (20_memory R62, R63, R66; WDATA is the host's own). -/
def validLength (sp : Space) (s : State) : Nat :=
  match sp with
  | .wdata => Config.wdataDepth
  | .rdata => s.resLen.toNat
  | .req => s.reqLen.toNat
  | .rep => s.rxn.toNat

/-- RDATA, REQ and REP are the sequencer's while a command runs (20_memory R65). -/
def ownedByHost (sp : Space) (s : State) : Bool :=
  match sp with
  | .wdata => true
  | .rdata | .req | .rep => !s.busy

/-- A host read of a buffer entry (10_state R44): a free value where the spec leaves it open (93 U2, U3); log 8, log 9. -/
def readEntry (sp : Space) (i : Nat) (s : State) : Byte :=
  if ownedByHost sp s && decide (i < validLength sp s) then readByte sp i s else Config.staleByte s.moves sp i

/-- The host sees a value; log 15. -/
def hostSees (v : BitVec 64) (s : State) : State := { s with hostSaw := v }

/-- A host read of a buffer entry, faulting where the buffer has no such index; log 11. -/
def readBuffer (sp : Space) (i : Nat) (s : State) : Host.Outcome State Fault Refusal :=
  if i < spaceSize sp then .next (hostSees ((readEntry sp i s).setWidth 64) s) else .fault (.noSuchIndex sp)

/-! ## Host writes -/

/-- A host write that must not happen while BUSY = 1 (10_state R44, 93 U1); log 10. -/
def whenIdle (r : Reg) (t s : State) : Host.Outcome State Fault Refusal :=
  if s.busy then .refused (.operandWhileBusy r) else .next t

/-- A host write of a register other than CTRL (10_state R44): the low bits of the value, nothing for a read-only
register. CTRL is Sequencer.lean's. -/
def writeRegister (r : Reg) (v : BitVec 64) (s : State) : Host.Outcome State Fault Refusal :=
  match r with
  | .op => whenIdle r { s with op := v.setWidth 8 } s
  | .slave => whenIdle r { s with slave := v.setWidth 8 } s
  | .maddr => whenIdle r { s with maddr := v.setWidth 16 } s
  | .count => whenIdle r { s with count := v.setWidth 16 } s
  | .value => whenIdle r { s with value := v.setWidth 16 } s
  | .timeoutMs => whenIdle r { s with timeoutMs := v.setWidth 32 } s
  | .cfg => .next { s with cfg := mergeCfg s.cfg (v.setWidth 8) }
  | .ctrl | .status | .rxn | .resLen | .excCode | .crcOut | .rxCount | .txCount | .ph | .reqLen | .repLen | .ts =>
      .next s

/-- A host write of one WDATA entry (10_state R44). -/
def writeWData (i : Nat) (b : Byte) (s : State) : Host.Outcome State Fault Refusal :=
  if s.busy then .refused .wdataWhileBusy
  else if i < spaceSize .wdata then .next { s with wdata := s.wdata.set i b }
  else .fault (.noSuchIndex .wdata)

/-- A host write of a buffer entry (10_state R44). RDATA, REQ and REP are read-only and the sequencer alone writes them
(20_memory R60); that a host write of one of their entries is ignored, at any time, is a DESIGN CHOICE, log 27. An index
the buffer has not faults; log 11. -/
def writeBuffer (sp : Space) (i : Nat) (b : Byte) (s : State) : Host.Outcome State Fault Refusal :=
  match sp with
  | .wdata => writeWData i b s
  | .rdata | .req | .rep => if i < spaceSize sp then .next s else .fault (.noSuchIndex sp)

/-! ## The typed results of 20_memory R66 -/

/-- The result of rdCoils: one flag per entry of RDATA. -/
def resultCoils (s : State) : List Bool :=
  (List.range s.resLen.toNat).map fun i => readByte .rdata i s != 0

/-- The result of rdRegisters: the words whose big-endian pairs RDATA holds. -/
def resultWords (s : State) : List Word :=
  (List.range (s.resLen.toNat / 2)).map fun i => cat8 (readByte .rdata (2 * i) s) (readByte .rdata (2 * i + 1) s)

/-- The result of rdBytes. -/
def resultBytes (s : State) : List Byte :=
  (List.range s.resLen.toNat).map fun i => readByte .rdata i s

/-! ## The call of 30_encoding R125 -/

/-- The host actions of one call, up to and including START: operand registers, WDATA from index 0, then CTRL.START = 1.
A register the command does not read is written 0. -/
def callEvents (i : Instr) (data : List Byte) : List Event :=
  [.host (.write .op (i.opcode.setWidth 64)), .host (.write .slave (i.slaveField.setWidth 64)),
   .host (.write .maddr (i.maddrField.setWidth 64)), .host (.write .count (i.countField.setWidth 64)),
   .host (.write .value (i.valueField.setWidth 64)), .host (.write .timeoutMs (i.timeoutField.setWidth 64))]
  ++ data.mapIdx (fun k b => .host (.writeBuffer .wdata k b)) ++ [.host (.write .ctrl 1)]

end Sys2Proof.Machine
end

