-- ==== Sys2Proof/Machine/Port.lean ====
section
/-! DEFINITION. The transport port (41_transport_port): what OPEN, FLUSH, WRITE and POP do on outcome `ok`, and the line
agent's own two steps. The outcomes `fault` and `mismatch` are `raise` (R172). -/

namespace Sys2Proof.Machine

/-- OPEN on `ok` (41_transport_port R162): TS and TS_VALID are not touched. -/
def openPort (s : State) : State :=
  { s with xport := .opened, cfgAct := s.cfg, rxq := [], txq := [], rxCount := 0, txCount := 0 }

/-- FLUSH on `ok` (R165): both directions. -/
def flushPort (s : State) : State := { s with rxq := [], txq := [] }

/-- WRITE on `ok(k)` with `bs` the first `k` bytes (R166). -/
def acceptBytes (bs : List Byte) (s : State) : State :=
  { s with txq := s.txq ++ bs, txCount := s.txCount + BitVec.ofNat 64 bs.length }

/-- RXQ has room for one more byte (10_state R42). The first test is the second one's special case at the minimum
depth, put first so that a queue shorter than that is decided without the open part of `RXQ_DEPTH`; log 12. -/
def rxqHasRoom (n : Nat) : Bool := decide (n < Config.rxqMinDepth) || decide (n < Config.rxqDepth)

/-- DELIVER (R168): enabled while Open, in every phase; a byte that finds RXQ full is dropped (10_state R42), the wire
history (R175) shows it all the same. Disabled otherwise (R174): nothing happens, log 5. -/
def deliver (d : Byte) (s : State) : State :=
  if s.xport = .opened then
    { s with rxq := if rxqHasRoom s.rxq.length then s.rxq ++ [d] else s.rxq
             wire := s.wire ++ [.rx d s.now] }
  else s

/-- What the wire shows of a transmitted byte: the byte itself with 8 data bits (R163), an unknown one with fewer
(93 U6); log 13. -/
def onWire (cfg d : Byte) : Byte := if dataBits cfg = 8 then d else Config.narrowByte cfg d

/-- TRANSMIT (R175): enabled while Open with TXQ not empty; otherwise nothing happens, log 5. -/
def transmit (s : State) : State :=
  if s.xport = .opened then
    match s.txq with
    | d :: q => { s with txq := q, wire := s.wire ++ [.tx (onWire s.cfgAct d) s.now] }
    | [] => s
  else s

/-- A step of the line agent. -/
def lineStep (a : LineAction) (s : State) : State :=
  match a with
  | .deliver d => deliver d s
  | .transmit => transmit s

end Sys2Proof.Machine
end

