-- ==== Sys2Proof/Machine/Phases.lean ====
section
/-! DEFINITION. The phases of the sequencer (42_sequencer), each one atomic step, over the plan of a Modbus operation:
what differs from one operation to the next (43_operations). A step whose guard no rule grants leaves the block as it
is; log 5. -/

namespace Sys2Proof.Machine

/-- What EXTRACT takes from the reply (42_sequencer R227 to R229). -/
inductive Extraction where
  /-- nothing (the writes) -/
  | nothing
  /-- this many coil flags (R227) -/
  | coils (n : Nat)
  /-- this many bytes from this index of REP (R228, R229) -/
  | bytes (off n : Nat)
  deriving DecidableEq, Repr

/-- How one Modbus operation fills the generic phases (43_operations R240). -/
structure Plan where
  /-- the slave address of the request -/
  slave : Byte
  /-- `fcode` (42_sequencer R199) -/
  fcode : Byte
  /-- the payload bytes before those copied from WDATA (R199) -/
  fields : List Byte
  /-- how many bytes of WDATA the payload ends with (R199) -/
  dataLen : Nat
  /-- `replen` (R200) -/
  replyLen : Nat
  /-- an empty write (R193) -/
  emptyWrite : Bool
  /-- COUNT is within the operation's bound (R194) -/
  inBounds : Bool
  /-- the length of the echo a write compares (R223); none for a read (R224) -/
  echo : Option Nat
  /-- what EXTRACT takes -/
  result : Extraction
  deriving DecidableEq, Repr

/-- The request before its CRC (42_sequencer R198, `H`). -/
def Plan.head (p : Plan) (data : List Byte) : List Byte := p.slave :: p.fcode :: (p.fields ++ data)

/-- The request frame (42_sequencer R198, R202). -/
def Plan.request (p : Plan) (data : List Byte) : List Byte := appendCrc (p.head data)

/-- CHECK of a Modbus operation: cases 3 to 6 of 42_sequencer R192, in that order. -/
def checkPhase (p : Plan) (s : State) : State :=
  if p.slave = 0 then raise .bounds s
  else if p.emptyWrite then completeOk s
  else if p.inBounds then { s with ph := if s.xport = .opened then .flush else .init }
  else raise .bounds s

/-- INIT (42_sequencer R196). -/
def initPhase (s : State) : State :=
  match s.draw.openAnswer with
  | .ok => { openPort s with ph := .flush }
  | .fault => raise .systemCall s
  | .mismatch => raise .consistency s

/-- FLUSH (42_sequencer R197). -/
def flushPhase (s : State) : State :=
  if s.draw.fault then raise .systemCall s else { flushPort s with ph := .build }

/-- BUILD (42_sequencer R198, R202): the CRC is computed over every byte before it, in one atomic step (40_crc16 R145);
CRC_ACC ends as the computed value (40_crc16 R133). A frame or reply longer than its buffer is a fault, which the
bounds of R194 exclude (43_operations R251); log 11. -/
def buildPhase (p : Plan) (s : State) : Host.Outcome State Fault Refusal :=
  withRange .wdata 0 p.dataLen s fun data =>
    if Config.maxAdu < p.replyLen then .fault (.noSuchIndex .rep)
    else withStore .req 0 (p.request data) s fun t =>
      .next { t with reqLen := BitVec.ofNat 9 (p.request data).length, repLen := BitVec.ofNat 9 p.replyLen
                     crcAcc := crc16 (p.head data), crcOut := crc16 (p.head data), ph := .gapw }

/-- The gap step (42_sequencer R203): its four cases in order; `enter` is what entering the next phase does. -/
def gapStep (enter : State → State) (s : State) : State :=
  if !s.tsValid then enter s
  else if s.now ≤ s.ts then raise .timing s
  else if s.ts + Config.interFrame ≤ s.now then enter s
  else s

/-- GAPW. -/
def gapwPhase (s : State) : State := gapStep (fun t => { t with ph := .write }) s

/-- READ entry (42_sequencer R215). -/
def enterRead (timeout : BitVec 32) (s : State) : State :=
  { s with t0 := s.now, dl := timeout.toNat * 1000, ph := .read }

/-- GAPR. -/
def gaprPhase (timeout : BitVec 32) (s : State) : State := gapStep (enterRead timeout) s

/-- WRITE (42_sequencer R208): TS is stamped also on a short write (R230). -/
def writePhase (s : State) : Host.Outcome State Fault Refusal :=
  if s.draw.fault then .next (raise .systemCall s)
  else withRange .req 0 (min s.draw.accepts s.reqLen.toNat) s fun bs =>
    let t := stamp (acceptBytes bs s)
    if bs.length < s.reqLen.toNat then .next (raise .request t) else .next { t with ph := .drain }

/-- DRAIN (42_sequencer R209): it waits while TXQ is not empty. -/
def drainPhase (s : State) : State :=
  if s.draw.fault then raise .systemCall s
  else if s.txq = [] then { stamp s with ph := .gapr }
  else s

/-- The READ byte step (42_sequencer R216), `d` the head of RXQ and `q` the rest. -/
def takeByte (d : Byte) (q : List Byte) (s : State) : Host.Outcome State Fault Refusal :=
  withStore .rep s.rxn.toNat [d] s fun t =>
    .next { t with rxq := q, rxn := s.rxn + 1, rxCount := s.rxCount + 1 }

/-- The READ end step (42_sequencer R217): TS is stamped also when nothing was received (R230). -/
def endRead (s : State) : State :=
  if s.rxn = 0 then raise .timeout (stamp s) else { stamp s with ph := .vcrc }

/-- The guard of the READ end step (42_sequencer R217). -/
def readEnds (s : State) : Bool := decide (s.rxn = s.repLen) || decide (s.t0 + s.dl ≤ s.now)

/-- READ (42_sequencer R216 to R219). Where the byte step and the end step are both enabled the line agent's draw
settles which is taken (R218(b), 93 U4); log 4. -/
def readPhase (s : State) : Host.Outcome State Fault Refusal :=
  if s.draw.fault then .next (raise .systemCall s)
  else match s.rxq with
    | d :: q =>
        if s.rxn < s.repLen && (!readEnds s || s.draw.takesByte) then takeByte d q s
        else if readEnds s then .next (endRead s)
        else .next s
    | [] => if readEnds s then .next (endRead s) else .next s

/-- Run the checker over a frame and go to `ok`, or raise CRCError; CRC_OUT and CRC_ACC show the CRC that was computed,
if one was (40_crc16 R140, 10_state R32). -/
def checkFrame (f : List Byte) (ok : State → State) (s : State) : State :=
  match computedCrc f with
  | none => raise .crc s
  | some c =>
      let t := { s with crcAcc := c, crcOut := c }
      if receivedCrc f = c then ok t else raise .crc t

/-- VCRC (42_sequencer R222): over the received prefix. -/
def vcrcPhase (s : State) : Host.Outcome State Fault Refusal :=
  withRange .rep 0 s.rxn.toNat s fun f => .next (checkFrame f (fun t => { t with ph := .vid }) s)

/-- Exception detection (42_sequencer R226). -/
def noteException (s : State) : State :=
  if s.rxn = 5 ∧ readByte .rep 0 s = readByte .req 0 s ∧ readByte .rep 1 s = readByte .req 1 s ||| 0x80 then
    { s with exc := true, excCode := readByte .rep 2 s }
  else s

/-- VID of a write (42_sequencer R223): the length first (R225), then the echo. -/
def vidEcho (len : Nat) (s : State) : Host.Outcome State Fault Refusal :=
  if s.rxn ≠ s.repLen then .next (raise .reply (noteException s))
  else withRange .rep 0 len s fun got => withRange .req 0 len s fun sent =>
    if got = sent then .next { noteException s with ph := .extract } else .next (raise .reply (noteException s))

/-- VID of a read (42_sequencer R224, R225): address, function code and length, nothing else (30_encoding R117). -/
def vidIdentity (s : State) : State :=
  if readByte .rep 0 s = readByte .req 0 s ∧ readByte .rep 1 s = readByte .req 1 s ∧ s.rxn = s.repLen then
    { noteException s with ph := .extract }
  else raise .reply (noteException s)

/-- VID. -/
def vidPhase (p : Plan) (s : State) : Host.Outcome State Fault Refusal :=
  match p.echo with
  | some len => vidEcho len s
  | none => .next (vidIdentity s)

/-- Coil flag `i` of packed data (20_memory R68, LSB first: conflict C1, log 17), as the byte RDATA holds. -/
def coilFlag (packed : List Byte) (i : Nat) : Byte :=
  if (packed.getD (i / 8) 0).getLsbD (i % 8) then 1 else 0

/-- The flags of `n` coils (20_memory R66): bits beyond `n` reach none of them (R69). -/
def unpackCoils (packed : List Byte) (n : Nat) : List Byte := (List.range n).map (coilFlag packed)

/-- Store the typed result and complete (42_sequencer R227 to R229). -/
def deliverResult (bs : List Byte) (s : State) : Host.Outcome State Fault Refusal :=
  withStore .rdata 0 bs s fun t => .next (completeOk { t with resLen := BitVec.ofNat 11 bs.length })

/-- EXTRACT (42_sequencer R227 to R229). -/
def extractPhase (p : Plan) (s : State) : Host.Outcome State Fault Refusal :=
  match p.result with
  | .nothing => .next (completeOk s)
  | .coils n => withRange .rep 3 ((n + 7) / 8) s fun packed => deliverResult (unpackCoils packed n) s
  | .bytes off n => withRange .rep off n s fun bs => deliverResult bs s

/-- One sequencer step of a Modbus operation: START while BUSY = 0, the phase PH names otherwise. CRCOP is no phase of
a Modbus operation (42_sequencer R231): no rule applies, log 5. -/
def transact (p : Plan) (timeout : BitVec 32) (s : State) : Host.Outcome State Fault Refusal :=
  if s.busy then
    match s.ph with
    | .idle => .next s
    | .check => .next (checkPhase p s)
    | .init => .next (initPhase s)
    | .flush => .next (flushPhase s)
    | .build => buildPhase p s
    | .gapw => .next (gapwPhase s)
    | .write => writePhase s
    | .drain => .next (drainPhase s)
    | .gapr => .next (gaprPhase timeout s)
    | .read => readPhase s
    | .vcrc => vcrcPhase s
    | .vid => vidPhase p s
    | .extract => extractPhase p s
    | .crcop => .next s
  else .next (start s)

/-- CHECK of a CRC unit command: case 2 of 42_sequencer R192. -/
def checkCrcPhase (count : Word) (s : State) : State :=
  if Config.wdataDepth < count.toNat then raise .bounds s else { s with ph := .crcop }

/-- One sequencer step of a CRC unit command over `WDATA[0 : COUNT]`, `run` being its CRCOP step. No other phase is its
own: no rule applies there, log 5. -/
def crcCommand (count : Word) (run : List Byte → State → State) (s : State) : Host.Outcome State Fault Refusal :=
  if s.busy then
    match s.ph with
    | .check => .next (checkCrcPhase count s)
    | .crcop => withRange .wdata 0 count.toNat s fun bs => .next (run bs s)
    | .idle | .init | .flush | .build | .gapw | .write | .drain | .gapr | .read | .vcrc | .vid | .extract => .next s
  else .next (start s)

/-- CRCOP of crcCompute (42_sequencer R231, 40_crc16 R133). -/
def computeStep (bs : List Byte) (s : State) : State :=
  completeOk { s with crcAcc := crc16 bs, crcOut := crc16 bs }

/-- CRCOP of crcValidate (42_sequencer R231, 40_crc16 R140). -/
def validateStep (bs : List Byte) (s : State) : State := checkFrame bs completeOk s

/-- A sequencer step with an OP that names no command (30_encoding R120): START as always, then BoundsError in CHECK.
No reachable state holds an illegal OP in a later phase; no rule applies there, log 5. -/
def illegalCommand (s : State) : State :=
  if s.busy then (if s.ph = .check then raise .bounds s else s) else start s

end Sys2Proof.Machine
end

