-- ==== Sys2Proof/Machine/CrcCommands.lean ====
section
/-! DEFINITION. The CRC unit commands: crcCompute, crcValidate (43_operations R248, R249). -/

namespace Sys2Proof.Machine

/-- One sequencer step of crcCompute (43_operations R248). -/
def execCrcCompute (count : Word) (s : State) : Host.Outcome State Fault Refusal := crcCommand count computeStep s

/-- One sequencer step of crcValidate (43_operations R249). -/
def execCrcValidate (count : Word) (s : State) : Host.Outcome State Fault Refusal := crcCommand count validateStep s

end Sys2Proof.Machine
end

