-- ==== Sys2Proof/Machine/ReadCommands.lean ====
section
/-! DEFINITION. The read operations: rdCoils, rdRegisters, rdBytes (43_operations R241, R242, R246). -/

namespace Sys2Proof.Machine

/-- rdCoils (43_operations R241; frames 30_encoding R100, R101). -/
def planRdCoils (slave : Byte) (maddr count : Word) : Plan where
  slave := slave
  fcode := 0x01
  fields := be16 maddr ++ be16 count
  dataLen := 0
  replyLen := 5 + (count.toNat + 7) / 8
  emptyWrite := false
  inBounds := decide (1 ≤ count.toNat) && decide (count.toNat ≤ Config.maxCoils)
  echo := none
  result := .coils count.toNat

/-- rdRegisters (43_operations R242; frames 30_encoding R102, R103). -/
def planRdRegisters (slave : Byte) (maddr count : Word) : Plan where
  slave := slave
  fcode := 0x03
  fields := be16 maddr ++ be16 count
  dataLen := 0
  replyLen := 5 + 2 * count.toNat
  emptyWrite := false
  inBounds := decide (1 ≤ count.toNat) && decide (count.toNat ≤ Config.maxReadRegisters)
  echo := none
  result := .bytes 3 (2 * count.toNat)

/-- rdBytes (43_operations R246; frames 30_encoding R110, R111; the reply's five-byte header is decision D15, log 18). -/
def planRdBytes (slave : Byte) (maddr count : Word) : Plan where
  slave := slave
  fcode := 0x41
  fields := be16 maddr ++ [lo8 count]
  dataLen := 0
  replyLen := 7 + count.toNat
  emptyWrite := false
  inBounds := decide (1 ≤ count.toNat) && decide (count.toNat ≤ Config.maxBytes)
  echo := none
  result := .bytes 5 count.toNat

/-- One sequencer step of rdCoils. -/
def execRdCoils (slave : Byte) (maddr count : Word) (timeout : BitVec 32) (s : State) : Host.Outcome State Fault Refusal :=
  transact (planRdCoils slave maddr count) timeout s

/-- One sequencer step of rdRegisters. -/
def execRdRegisters (slave : Byte) (maddr count : Word) (timeout : BitVec 32) (s : State) :
    Host.Outcome State Fault Refusal :=
  transact (planRdRegisters slave maddr count) timeout s

/-- One sequencer step of rdBytes. -/
def execRdBytes (slave : Byte) (maddr count : Word) (timeout : BitVec 32) (s : State) : Host.Outcome State Fault Refusal :=
  transact (planRdBytes slave maddr count) timeout s

end Sys2Proof.Machine
end

