-- ==== Sys2Proof/Machine/WriteCommands.lean ====
section
/-! DEFINITION. The write operations: wrCoil, wrRegister, wrRegisters, wrBytes (43_operations R243, R244, R245, R247). -/

namespace Sys2Proof.Machine

/-- The value field of a wrCoil request (30_encoding R104, R122). -/
def coilValue (value : Word) : Word := if value = 0 then 0x0000 else 0xFF00

/-- wrCoil (43_operations R243; frames 30_encoding R104, R105). COUNT is not read. -/
def planWrCoil (slave : Byte) (maddr value : Word) : Plan where
  slave := slave
  fcode := 0x05
  fields := be16 maddr ++ be16 (coilValue value)
  dataLen := 0
  replyLen := 8
  emptyWrite := false
  inBounds := true
  echo := some 6
  result := .nothing

/-- wrRegister (43_operations R244; frames 30_encoding R106, R107). COUNT is not read. -/
def planWrRegister (slave : Byte) (maddr value : Word) : Plan where
  slave := slave
  fcode := 0x06
  fields := be16 maddr ++ be16 value
  dataLen := 0
  replyLen := 8
  emptyWrite := false
  inBounds := true
  echo := some 6
  result := .nothing

/-- wrRegisters (43_operations R245; frames 30_encoding R108, R109). -/
def planWrRegisters (slave : Byte) (maddr count : Word) : Plan where
  slave := slave
  fcode := 0x10
  fields := be16 maddr ++ be16 count ++ [BitVec.ofNat 8 (2 * count.toNat)]
  dataLen := 2 * count.toNat
  replyLen := 8
  emptyWrite := decide (count = 0)
  inBounds := decide (1 ≤ count.toNat) && decide (count.toNat ≤ Config.maxWriteRegisters)
  echo := some 6
  result := .nothing

/-- wrBytes (43_operations R247; frames 30_encoding R112, R113). -/
def planWrBytes (slave : Byte) (maddr count : Word) : Plan where
  slave := slave
  fcode := 0x42
  fields := be16 maddr ++ [lo8 count]
  dataLen := count.toNat
  replyLen := 7 + count.toNat
  emptyWrite := decide (count = 0)
  inBounds := decide (1 ≤ count.toNat) && decide (count.toNat ≤ Config.maxBytes)
  echo := some (5 + count.toNat)
  result := .nothing

/-- One sequencer step of wrCoil. -/
def execWrCoil (slave : Byte) (maddr value : Word) (timeout : BitVec 32) (s : State) : Host.Outcome State Fault Refusal :=
  transact (planWrCoil slave maddr value) timeout s

/-- One sequencer step of wrRegister. -/
def execWrRegister (slave : Byte) (maddr value : Word) (timeout : BitVec 32) (s : State) :
    Host.Outcome State Fault Refusal :=
  transact (planWrRegister slave maddr value) timeout s

/-- One sequencer step of wrRegisters. -/
def execWrRegisters (slave : Byte) (maddr count : Word) (timeout : BitVec 32) (s : State) :
    Host.Outcome State Fault Refusal :=
  transact (planWrRegisters slave maddr count) timeout s

/-- One sequencer step of wrBytes. -/
def execWrBytes (slave : Byte) (maddr count : Word) (timeout : BitVec 32) (s : State) : Host.Outcome State Fault Refusal :=
  transact (planWrBytes slave maddr count) timeout s

end Sys2Proof.Machine
end

