-- ==== Sys2Proof/Machine/Dispatch.lean ====
section
/-! DEFINITION. One sequencer step of each of the nine commands: one arm per constructor. -/

namespace Sys2Proof.Machine

def exec (i : Instr) (s : State) : Host.Outcome State Fault Refusal :=
  match i with
  | .rdCoils slave maddr count timeout => Sys2Proof.Machine.execRdCoils slave maddr count timeout s
  | .rdRegisters slave maddr count timeout => Sys2Proof.Machine.execRdRegisters slave maddr count timeout s
  | .wrCoil slave maddr value timeout => Sys2Proof.Machine.execWrCoil slave maddr value timeout s
  | .wrRegister slave maddr value timeout => Sys2Proof.Machine.execWrRegister slave maddr value timeout s
  | .wrRegisters slave maddr count timeout => Sys2Proof.Machine.execWrRegisters slave maddr count timeout s
  | .rdBytes slave maddr count timeout => Sys2Proof.Machine.execRdBytes slave maddr count timeout s
  | .wrBytes slave maddr count timeout => Sys2Proof.Machine.execWrBytes slave maddr count timeout s
  | .crcCompute count => Sys2Proof.Machine.execCrcCompute count s
  | .crcValidate count => Sys2Proof.Machine.execCrcValidate count s

end Sys2Proof.Machine
end

