-- ==== Sys2Proof/Machine/Sequencer.lean ====
section
/-! DEFINITION. What each agent's event does: the sequencer's step of the command the registers hold, the host's
accesses and strobes, the line, the timebase, reset. -/

namespace Sys2Proof.Machine

/-- One sequencer step of the command the registers hold now (10_state R44). -/
def runCommand (s : State) : Host.Outcome State Fault Refusal :=
  match decode (commandWord s) with
  | .ok i => exec i s
  | .error _ => .next (illegalCommand s)

/-- The sequencer's turn, the line agent answering with `d` and the host asserting the counter strobes `r` in the same
step (10_state R28: the strobe wins). With BUSY = 0 the sequencer does nothing (42_sequencer R232). -/
def sequencerStep (d : Draw) (r : Strobes) (s : State) : Host.Outcome State Fault Refusal :=
  if s.busy then onNext (clearCounters r) (runCommand { s with draw := d }) else .next (clearCounters r s)

/-- A host write of CTRL (10_state R28): the counter strobes act at any time, START as 42_sequencer R190; a START while
BUSY = 1 is refused (93 U1, log 10). -/
def writeCtrl (v : BitVec 64) (s : State) : Host.Outcome State Fault Refusal :=
  if startBit v then
    (if s.busy then .refused .startWhileBusy else runCommand (clearCounters (strobesOf v) s))
  else .next (clearCounters (strobesOf v) s)

/-- A host access (10_state R44). -/
def hostStep (a : HostAction) (s : State) : Host.Outcome State Fault Refusal :=
  match a with
  | .write r v => if r = .ctrl then writeCtrl v s else writeRegister r v s
  | .writeBuffer sp i b => writeBuffer sp i b s
  | .read r => .next (hostSees (readRegister r s) s)
  | .readBuffer sp i => readBuffer sp i s

/-- One event (20_memory R74). -/
def takeEvent (e : Event) (s : State) : Host.Outcome State Fault Refusal :=
  match e with
  | .host a => hostStep a s
  | .line a => .next (lineStep a s)
  | .time t => .next { s with now := t }
  | .sequencer d r => sequencerStep d r s
  | .reset => .next (resetBlock s)

/-- The event that makes the very next step run the command the registers hold: the host's START when the block is
idle, the sequencer's turn when a command runs; log 2. -/
def runEvent (s : State) : Event := if s.busy then .sequencer {} {} else .host (.write .ctrl 1)

end Sys2Proof.Machine
end

