-- ==== Sys2Proof/Machine/Step.lean ====
section
/-! DEFINITION. One step of the machine: the pending event, taken. And the placing of a command so that the next step
runs it. -/

namespace Sys2Proof.Machine

/-- One step of whichever agent is next (20_memory R74). -/
def step (s : State) : Host.Outcome State Fault Refusal := takeEvent (pendingEvent s) (afterEvent s)

/-- The operand registers hold the command whose low `nbits` bits are `w` (all others zero), and the next event runs it;
log 2. -/
def State.withFetchWord (s : State) (nbits w : Nat) : State :=
  { loadWord (tableByte nbits w) s with agenda := runEvent s :: s.agenda }

end Sys2Proof.Machine
end

