-- ==== Sys2Proof/Machine/Frames.lean ====
section
/-! DEFINITION. The request frames of 30_encoding as the instruction encodings they are (00_scope R9): the frame of a
command, and a reader of frames. The block itself never reads a request (00_scope R3): the reader is the model's, to say
that a frame determines its command; log 21. -/

namespace Sys2Proof.Machine

/-- The plan of a Modbus operation; the CRC unit commands have none (43_operations R248, R249). -/
def planOf : Instr → Option Plan
  | .rdCoils a m n _ => some (planRdCoils a m n)
  | .rdRegisters a m n _ => some (planRdRegisters a m n)
  | .wrCoil a m v _ => some (planWrCoil a m v)
  | .wrRegister a m v _ => some (planWrRegister a m v)
  | .wrRegisters a m n _ => some (planWrRegisters a m n)
  | .rdBytes a m n _ => some (planRdBytes a m n)
  | .wrBytes a m n _ => some (planWrBytes a m n)
  | .crcCompute _ | .crcValidate _ => none

/-- The command of a frame's payload bytes (30_encoding R100 to R112), with the data bytes it carries. TIMEOUT_MS is not
on the wire. -/
def readPayload (timeout : BitVec 32) (a fc : Byte) (m : Word) (rest : List Byte) :
    Except DecodeError (Instr × List Byte) :=
  if fc = 0x01 then
    match rest with
    | [ch, cl] => .ok (.rdCoils a m (cat8 ch cl) timeout, [])
    | _ => .error (.badLength rest.length)
  else if fc = 0x03 then
    match rest with
    | [ch, cl] => .ok (.rdRegisters a m (cat8 ch cl) timeout, [])
    | _ => .error (.badLength rest.length)
  else if fc = 0x05 then
    match rest with
    | [vh, vl] =>
        if cat8 vh vl = 0x0000 ∨ cat8 vh vl = 0xFF00 then .ok (.wrCoil a m (cat8 vh vl) timeout, []) else .error .badField
    | _ => .error (.badLength rest.length)
  else if fc = 0x06 then
    match rest with
    | [vh, vl] => .ok (.wrRegister a m (cat8 vh vl) timeout, [])
    | _ => .error (.badLength rest.length)
  else if fc = 0x10 then
    match rest with
    | ch :: cl :: b :: data =>
        if b.toNat = 2 * (cat8 ch cl).toNat ∧ data.length = b.toNat then .ok (.wrRegisters a m (cat8 ch cl) timeout, data)
        else .error .badField
    | _ => .error (.badLength rest.length)
  else if fc = 0x41 then
    match rest with
    | [n] => .ok (.rdBytes a m (n.setWidth 16) timeout, [])
    | _ => .error (.badLength rest.length)
  else if fc = 0x42 then
    match rest with
    | n :: data =>
        if data.length = n.toNat then .ok (.wrBytes a m (n.setWidth 16) timeout, data) else .error .badField
    | _ => .error (.badLength rest.length)
  else .error (.illegalOp fc)

/-- Read a request frame: the CRC first, then the fields. -/
def readFrame (timeout : BitVec 32) (f : List Byte) : Except DecodeError (Instr × List Byte) :=
  if validate f then
    match frameBody f with
    | a :: fc :: mh :: ml :: rest => readPayload timeout a fc (cat8 mh ml) rest
    | _ => .error (.badLength f.length)
  else .error .badCrc

end Sys2Proof.Machine
end

