-- ==== Sys2Proof/WellFormed.lean ====
section
/-! DEFINITION. The operand ranges of 30_encoding R94. A command outside them still runs: the CHECK phase ends it with
BoundsError (42_sequencer R192), and what exec does with it is stated without this predicate. -/

namespace Sys2Proof

/-- The slave address is one a request may carry (30_encoding R121); the CRC unit commands have none. -/
def Instr.slaveOk : Instr → Bool
  | .rdCoils a _ _ _ | .rdRegisters a _ _ _ | .wrCoil a _ _ _ | .wrRegister a _ _ _
  | .wrRegisters a _ _ _ | .rdBytes a _ _ _ | .wrBytes a _ _ _ => a != 0
  | .crcCompute _ | .crcValidate _ => true

/-- COUNT is in the range of 30_encoding R94, the empty writes included (42_sequencer R193, R194). -/
def Instr.countOk : Instr → Bool
  | .rdCoils _ _ n _ => 1 ≤ n.toNat && n.toNat ≤ Config.maxCoils
  | .rdRegisters _ _ n _ => 1 ≤ n.toNat && n.toNat ≤ Config.maxReadRegisters
  | .wrCoil _ _ _ _ | .wrRegister _ _ _ _ => true
  | .wrRegisters _ _ n _ => n.toNat ≤ Config.maxWriteRegisters
  | .rdBytes _ _ n _ => 1 ≤ n.toNat && n.toNat ≤ Config.maxBytes
  | .wrBytes _ _ n _ => n.toNat ≤ Config.maxBytes
  | .crcCompute n | .crcValidate n => n.toNat ≤ Config.wdataDepth

/-- The operands are all within the ranges of 30_encoding R94. -/
def Instr.wellFormed (i : Instr) : Bool := i.slaveOk && i.countOk

end Sys2Proof
end

