-- ==== Sys2Proof/Safety.lean ====
section
/-! DEFINITION. The terms claims about whole runs use: the phase graph of 42_sequencer R191 and the invariant every step
keeps. -/

namespace Sys2Proof.Machine

/-! ## The phase graph (42_sequencer R191) -/

/-- The edges of the graph from one phase of a command to another, START the first. -/
def phaseEdge : Phase → Phase → Bool
  | .idle, .check => true
  | .check, .crcop | .check, .init | .check, .flush => true
  | .init, .flush | .flush, .build | .build, .gapw | .gapw, .write | .write, .drain | .drain, .gapr => true
  | .gapr, .read | .read, .vcrc | .vcrc, .vid | .vid, .extract => true
  | _, _ => false

/-- The edges to IDLE: what a command may end with in each phase, none being "ok". -/
def endsWith : Phase → Option ErrorKind → Bool
  | .check, none | .check, some .bounds => true
  | .init, some .systemCall | .init, some .consistency => true
  | .flush, some .systemCall => true
  | .gapw, some .timing | .gapr, some .timing => true
  | .write, some .request | .write, some .systemCall => true
  | .drain, some .systemCall => true
  | .read, some .timeout | .read, some .systemCall => true
  | .vcrc, some .crc => true
  | .vid, some .reply => true
  | .extract, none => true
  | .crcop, none | .crcop, some .crc => true
  | _, _ => false

/-- The phases that can wait over many steps of other agents (R191). -/
def waits : Phase → Bool
  | .gapw | .drain | .gapr | .read => true
  | .idle | .check | .init | .flush | .build | .write | .vcrc | .vid | .extract | .crcop => false

/-- One move along the graph: an edge, an end of the command, or a wait. -/
def phaseMove (s t : State) : Prop :=
  phaseEdge s.ph t.ph = true ∨
  (t.ph = .idle ∧ t.busy = false ∧ t.done = true ∧ endsWith s.ph t.err = true) ∨
  (t.ph = s.ph ∧ waits s.ph = true)

/-! ## Where in a command a state stands -/

/-- The phases after CHECK: the command passed its checks. -/
def pastCheck : Phase → Bool
  | .idle | .check => false
  | .init | .flush | .build | .gapw | .write | .drain | .gapr | .read | .vcrc | .vid | .extract | .crcop => true

/-- The phases that need an open transport (R195). -/
def needsPort : Phase → Bool
  | .flush | .build | .gapw | .write | .drain | .gapr | .read | .vcrc | .vid | .extract => true
  | .idle | .check | .init | .crcop => false

/-- The phases after BUILD: REQ holds the request. -/
def pastBuild : Phase → Bool
  | .gapw | .write | .drain | .gapr | .read | .vcrc | .vid | .extract => true
  | .idle | .check | .init | .flush | .build | .crcop => false

/-- The phases after WRITE: TS holds a time (R230). -/
def pastWrite : Phase → Bool
  | .drain | .gapr | .read | .vcrc | .vid | .extract => true
  | .idle | .check | .init | .flush | .build | .gapw | .write | .crcop => false

/-- The phases before the first reply byte can have been taken. -/
def beforeRead : Phase → Bool
  | .check | .init | .flush | .build | .gapw | .write | .drain | .gapr | .crcop => true
  | .idle | .read | .vcrc | .vid | .extract => false

/-- An empty write (42_sequencer R193): a command that is over in CHECK. -/
def emptyWrite (i : Instr) : Bool :=
  match planOf i with
  | some p => p.emptyWrite
  | none => false

/-- The command is one CHECK lets pass. -/
def accepted (i : Instr) : Bool := i.wellFormed && !emptyWrite i

/-- REQ holds the request frame of plan `p` over the WDATA of now, and the length registers its lengths (R198, R202). -/
def holdsRequest (p : Plan) (s : State) : Prop :=
  ∃ data, readRange .wdata 0 p.dataLen s = some data ∧ readRange .req 0 s.reqLen.toNat s = some (p.request data) ∧
    s.repLen.toNat = p.replyLen

/-! ## The invariant -/

/-- What holds after reset and after every step. -/
structure BlockInv (s : State) : Prop where
  /-- every buffer is in its canonical form -/
  buffers : ∀ sp, Memory.wf (spaceSize sp) (s.buffer sp) = true
  /-- PH = IDLE exactly when BUSY = 0 (10_state R33) -/
  busyPhase : s.busy = true ↔ s.ph ≠ .idle
  /-- BUSY and DONE are never both 1 (10_state R29) -/
  notBoth : ¬ (s.busy = true ∧ s.done = true)
  /-- PARITY never holds its reserved value (10_state R35) -/
  parity : parityField s.cfg ≠ 3
  /-- both queues are empty while the transport is not open (41_transport_port R174) -/
  queues : s.xport ≠ .opened → s.rxq = [] ∧ s.txq = []
  /-- RXQ never exceeds its depth (10_state R42) -/
  rxqBound : s.rxq.length ≤ Config.rxqDepth
  /-- ERR, EXC and RES_LEN are 0 while a command runs (10_state R29, R30) -/
  quiet : s.busy = true → s.err = none ∧ s.exc = false ∧ s.resLen = 0
  /-- EXC_CODE is 0 without EXC (10_state R31) -/
  excCode : s.exc = false → s.excCode = 0
  /-- a failed command leaves no result (20_memory R66) -/
  noResult : s.err ≠ none → s.resLen = 0
  /-- the ranges of the length registers (10_state R30) -/
  lengths : s.reqLen.toNat ≤ Config.maxAdu ∧ s.repLen.toNat ≤ Config.maxAdu ∧ s.rxn.toNat ≤ s.repLen.toNat ∧
    s.resLen.toNat ≤ Config.rdataDepth
  /-- only INIT runs without an open transport (42_sequencer R195) -/
  portOpen : needsPort s.ph = true → s.xport = .opened
  /-- INIT runs only without one (42_sequencer R195) -/
  initClosed : s.ph = .init → s.xport ≠ .opened
  /-- after CHECK the registers hold a command it let pass, CRCOP being the CRC unit commands' phase -/
  command : pastCheck s.ph = true →
    ∃ i, decode (commandWord s) = .ok i ∧ accepted i = true ∧ (s.ph = .crcop ↔ planOf i = none)
  /-- after BUILD, REQ holds that command's request (20_memory R62, 42_sequencer R202) -/
  request : pastBuild s.ph = true → ∀ i p, decode (commandWord s) = .ok i → planOf i = some p → holdsRequest p s
  /-- after WRITE, TS holds a time (42_sequencer R230) -/
  stamped : pastWrite s.ph = true → s.tsValid = true
  /-- no reply byte is counted before READ (10_state R30) -/
  unread : beforeRead s.ph = true → s.rxn = 0
  /-- VCRC has at least one byte (R217), VID at least three (R222), EXTRACT the whole reply (R225) -/
  received : (s.ph = .vcrc → s.rxn ≠ 0) ∧ (s.ph = .vid → 3 ≤ s.rxn.toNat) ∧ (s.ph = .extract → s.rxn = s.repLen)
  /-- every counted reply byte has been written to REP (20_memory R63) -/
  replyHeld : ∀ k, k < s.rxn.toNat → (s.rep.get? k).isSome = true

end Sys2Proof.Machine
end

