-- ==== Sys2Proof/Certificates/Slice0/Obligations.lean ====
section
/-! DEFINITION. What is claimed of the model. Each docstring says which rule of the spec a statement formalises. A next
state is written out as the old one with the fields the rule changes, so that every other field, the frame, is claimed
unchanged; where a buffer is written, the buffer's bytes before and after are compared one by one. -/

open Sys2Proof Sys2Proof.Machine

namespace Sys2Proof.Claims

/-- A command runs and PH names this phase. -/
abbrev running (p : Phase) (s : State) : Prop := s.busy = true ∧ s.ph = p

/-- A Modbus operation, not a CRC unit command. -/
abbrev modbus (i : Instr) : Prop := ∃ p, planOf i = some p

/-- The state a command leaves when it ends without error (42_sequencer R232). -/
abbrev endedOk (s : State) : State := { s with err := none, busy := false, done := true, ph := .idle }

/-- The state a command leaves when it ends with an error that keeps the transport (60_exceptions R283). -/
abbrev endedWith (k : ErrorKind) (s : State) : State := { s with err := some k, busy := false, done := true, ph := .idle }

/-- The state a command leaves when it ends with an error that invalidates the transport (60_exceptions R283). -/
abbrev endedInvalid (k : ErrorKind) (s : State) : State :=
  { s with xport := .closed, rxq := [], txq := [], err := some k, busy := false, done := true, ph := .idle }

/-- A command as START leaves it (42_sequencer R190). -/
abbrev started (s : State) : State :=
  { s with busy := true, done := false, err := none, exc := false, excCode := 0, rxn := 0, resLen := 0, reqLen := 0,
           repLen := 0, ph := .check }

/-- COUNT is outside the bound of the operation OP names (42_sequencer R194). -/
abbrev countOutside (op : Byte) (n : Nat) : Prop :=
  (op = 0x01 ∧ ¬ (1 ≤ n ∧ n ≤ 2000)) ∨ (op = 0x03 ∧ ¬ (1 ≤ n ∧ n ≤ 125)) ∨ (op = 0x10 ∧ ¬ (1 ≤ n ∧ n ≤ 123)) ∨
  (op = 0x41 ∧ ¬ (1 ≤ n ∧ n ≤ 249)) ∨ (op = 0x42 ∧ ¬ (1 ≤ n ∧ n ≤ 249))

/-- CHECK lets the command go on: to FLUSH with an open transport, to INIT otherwise (42_sequencer R192). -/
abbrev passesCheck (s : State) : State := { s with ph := if s.xport = .opened then .flush else .init }

/-- BUILD of `i` in `s` puts `head` and its CRC, low byte first, into REQ and predetermines a reply of `replyLen`
bytes; REQ beyond the frame, and everything R198 does not name, is as before. -/
def builds (i : Instr) (s : State) (head : List Byte) (replyLen : Nat) : Prop :=
  ∃ t, exec i s = .next t ∧
    readRange .req 0 (head.length + 2) t = some (head ++ [lo8 (crc16 head), hi8 (crc16 head)]) ∧
    t.reqLen.toNat = head.length + 2 ∧ t.repLen.toNat = replyLen ∧ t.crcOut = crc16 head ∧ t.ph = .gapw ∧
    t = { s with req := t.req, reqLen := t.reqLen, repLen := t.repLen, crcAcc := t.crcAcc, crcOut := t.crcOut, ph := t.ph } ∧
    ∀ j, head.length + 2 ≤ j → readByte .req j t = readByte .req j s

/-- EXTRACT of `i` in `s` puts `result` into RDATA and completes; RDATA beyond it, and everything R227 to R229 do not
name, is as before. -/
def extracts (i : Instr) (s : State) (result : List Byte) : Prop :=
  ∃ t, exec i s = .next t ∧ readRange .rdata 0 result.length t = some result ∧
    t = { endedOk s with rdata := t.rdata, resLen := BitVec.ofNat 11 result.length } ∧
    ∀ j, result.length ≤ j → readByte .rdata j t = readByte .rdata j s

/-- The step ends READ (42_sequencer R217). -/
def endsRead (s : State) : State :=
  if s.rxn = 0 then { s with ts := s.now, tsValid := true, err := some .timeout, busy := false, done := true, ph := .idle }
  else { s with ts := s.now, tsValid := true, ph := .vcrc }

/-- The reply is an exception frame for the request in REQ (42_sequencer R226). -/
abbrev exceptionReply (s : State) : Prop :=
  s.rxn = 5 ∧ readByte .rep 0 s = readByte .req 0 s ∧ readByte .rep 1 s = (readByte .req 1 s ||| 0x80)

/-- EXC and EXC_CODE after exception detection (42_sequencer R226). -/
abbrev noted (s : State) : State :=
  if exceptionReply s then { s with exc := true, excCode := readByte .rep 2 s } else s

/-- What the phases may write (10_state R47), INIT, FLUSH, WRITE, DRAIN and READ including the invalidation, every
phase its completion. T0 and DL are written in the step that leaves GAPR (42_sequencer R215). -/
def phaseFrame (s t : State) : Prop :=
  match s.ph with
  | .idle => t = s
  | .check => t = { s with busy := t.busy, done := t.done, err := t.err, ph := t.ph }
  | .init => t = { s with xport := t.xport, cfgAct := t.cfgAct, rxq := t.rxq, txq := t.txq, rxCount := t.rxCount,
                          txCount := t.txCount, busy := t.busy, done := t.done, err := t.err, ph := t.ph }
  | .flush => t = { s with rxq := t.rxq, txq := t.txq, xport := t.xport, busy := t.busy, done := t.done, err := t.err,
                           ph := t.ph }
  | .build => t = { s with req := t.req, reqLen := t.reqLen, repLen := t.repLen, crcAcc := t.crcAcc, crcOut := t.crcOut,
                           ph := t.ph } ∧ ∀ j, t.reqLen.toNat ≤ j → readByte .req j t = readByte .req j s
  | .gapw => t = { s with busy := t.busy, done := t.done, err := t.err, ph := t.ph }
  | .write => t = { s with txq := t.txq, txCount := t.txCount, ts := t.ts, tsValid := t.tsValid, xport := t.xport,
                           rxq := t.rxq, busy := t.busy, done := t.done, err := t.err, ph := t.ph }
  | .drain => t = { s with ts := t.ts, tsValid := t.tsValid, xport := t.xport, rxq := t.rxq, txq := t.txq,
                           busy := t.busy, done := t.done, err := t.err, ph := t.ph }
  | .gapr => t = { s with t0 := t.t0, dl := t.dl, busy := t.busy, done := t.done, err := t.err, ph := t.ph }
  | .read => t = { s with rep := t.rep, rxn := t.rxn, rxq := t.rxq, rxCount := t.rxCount, ts := t.ts,
                          tsValid := t.tsValid, xport := t.xport, txq := t.txq, busy := t.busy, done := t.done,
                          err := t.err, ph := t.ph } ∧ ∀ j, j ≠ s.rxn.toNat → readByte .rep j t = readByte .rep j s
  | .vcrc => t = { s with crcAcc := t.crcAcc, crcOut := t.crcOut, busy := t.busy, done := t.done, err := t.err, ph := t.ph }
  | .vid => t = { s with exc := t.exc, excCode := t.excCode, busy := t.busy, done := t.done, err := t.err, ph := t.ph }
  | .extract => t = { s with rdata := t.rdata, resLen := t.resLen, busy := t.busy, done := t.done, err := t.err,
                             ph := t.ph } ∧ ∀ j, t.resLen.toNat ≤ j → readByte .rdata j t = readByte .rdata j s
  | .crcop => t = { s with crcAcc := t.crcAcc, crcOut := t.crcOut, busy := t.busy, done := t.done, err := t.err, ph := t.ph }

/-- A sequencer turn with a healthy transport that accepts the whole frame. -/
abbrev turn : Event := .sequencer {} {}

/-- The moves of one healthy transaction: the host's START; CHECK, FLUSH, BUILD; the gap passes at `tw`; WRITE; the
line transmits the request; DRAIN; the gap passes at `tr`; the line delivers the reply; READ takes it, and ends; VCRC,
VID, EXTRACT. -/
def healthyAgenda (requestLen : Nat) (reply : List Byte) (tw tr : Nat) : List Event :=
  [.host (.write .ctrl 1), turn, turn, turn, .time tw, turn, turn] ++ List.replicate requestLen (.line .transmit) ++
  [turn, .time tr, turn] ++ reply.map (fun d => .line (.deliver d)) ++ List.replicate reply.length turn ++
  [turn, turn, turn, turn]

/-- RDATA holds what 42_sequencer R227 to R229 take from a reply. -/
def holdsResult (r : Extraction) (reply : List Byte) (t : State) : Prop :=
  match r with
  | .nothing => t.resLen = 0
  | .coils n => t.resLen.toNat = n ∧
      ∀ k, k < n → readByte .rdata k t = if ((reply.getD (3 + k / 8) 0).getLsbD (k % 8)) then 1 else 0
  | .bytes off n => t.resLen.toNat = n ∧ ∀ k, k < n → readByte .rdata k t = reply.getD (off + k) 0

/-- What each register of 10_state R44 holds, zero-extended to 64 bits; CTRL reads as 0 (R28). TS is modulo 2^64
(log 22). -/
def held (r : Reg) (s : State) : BitVec 64 :=
  match r with
  | .ctrl => 0
  | .op => s.op.setWidth 64
  | .slave => s.slave.setWidth 64
  | .maddr => s.maddr.setWidth 64
  | .count => s.count.setWidth 64
  | .value => s.value.setWidth 64
  | .timeoutMs => s.timeoutMs.setWidth 64
  | .cfg => s.cfg.setWidth 64
  | .status => (statusWord s).setWidth 64
  | .rxn => s.rxn.setWidth 64
  | .resLen => s.resLen.setWidth 64
  | .excCode => s.excCode.setWidth 64
  | .crcOut => s.crcOut.setWidth 64
  | .rxCount => s.rxCount
  | .txCount => s.txCount
  | .ph => s.ph.code.setWidth 64
  | .reqLen => s.reqLen.setWidth 64
  | .repLen => s.repLen.setWidth 64
  | .ts => BitVec.ofNat 64 s.ts

end Sys2Proof.Claims

open Sys2Proof.Claims

/-! ## The whole machine -/

/-- The invariant holds at reset (10_state R46). -/
def Obligations.ResetMeetsTheInvariant : Prop := BlockInv State.reset

/-- Every step of every agent keeps the invariant, from every state that meets it: the buffers stay in canonical form,
BUSY and PH agree, a closed transport has empty queues, REQ holds the running command's frame, no reply byte is counted
that was not received, and the rest of `BlockInv`. -/
def Obligations.EveryStepKeepsTheInvariant : Prop := ∀ s t, BlockInv s → step s = .next t → BlockInv t

/-- 43_operations R251: every index is within its buffer, no access of a command can fault. So in a state that meets
the invariant the command the registers hold always takes its next step, whatever the line agent answers. -/
def Obligations.NoCommandStepStops : Prop :=
  ∀ s, BlockInv s → (∀ i, decode (commandWord s) = .ok i → ∃ t, exec i s = .next t) ∧
    ∀ d r, ∃ t, sequencerStep d r s = .next t

/-- The decoder undoes the encoder, for every command and every value of every operand. -/
def Obligations.DecodeUndoesEncode : Prop := ∀ i, decode (encode i) = .ok i

/-- 30_encoding R100 to R112: the request frame of a command in range determines the command, all its operands on the
wire, and the data bytes it carries; a coil value is read back as the one the wire carries (R104). The frame reader is
the model's (log 21). -/
def Obligations.RequestFrameDeterminesItsCommand : Prop :=
  ∀ i p data, planOf i = some p → i.wellFormed = true → data.length = p.dataLen →
    (∀ a m v t, i = .wrCoil a m v t → v = 0x0000 ∨ v = 0xFF00) →
    readFrame i.timeoutField (p.request data) = .ok (i, data)

/-- Words of three rows of the opcode table and two command words written out from 30_encoding R94 decode to the commands
they stand for; two OPs outside the nine decode to none, the command word's refused by name (R120). The byte order of the command word is the model's choice (log 1). -/
def Obligations.TableWordsDecodeToTheirCommands : Prop :=
  decodeTableWord 8 0x01 = some (.rdCoils 0 0 0 0) ∧ decodeTableWord 8 0x06 = some (.wrRegister 0 0 0 0) ∧
  decodeTableWord 8 0xF1 = some (.crcValidate 0) ∧ decodeTableWord 8 0x0F = none ∧
  decode [0x01, 0x11, 0x00, 0x00, 0x00, 0x0A, 0, 0, 0, 0, 0x01, 0xF4] = .ok (.rdCoils 17 0 10 500) ∧
  decode [0x06, 0x11, 0x00, 0x01, 0, 0, 0x00, 0xFF, 0, 0, 0x01, 0xF4] = .ok (.wrRegister 17 1 0x00FF 500) ∧
  decode [0x43, 0, 0, 0, 0, 0, 0, 0, 0, 0, 0, 0] = .error (.illegalOp 0x43)

/-- A step runs the command the registers hold (log 2): at the sequencer's turn, with the line agent's draw in place
and the counter strobes applied afterwards (10_state R28), and at the host's START while BUSY = 0, which is where a
command comes to run (42_sequencer R190). -/
def Obligations.StepRunsTheCommandTheRegistersHold : Prop :=
  ∀ s i, decode (commandWord s) = .ok i →
    (∀ d r rest, s.agenda = .sequencer d r :: rest → s.busy = true →
      step s = onNext (clearCounters r) (exec i { s with agenda := rest, moves := s.moves + 1, draw := d })) ∧
    (∀ v rest, s.agenda = .host (.write .ctrl v) :: rest → v.getLsbD 0 = true → s.busy = false →
      step s = exec i (clearCounters ⟨v.getLsbD 1, v.getLsbD 2⟩ { s with agenda := rest, moves := s.moves + 1 }))

/-- 42_sequencer R191: PH moves only along the edges of the phase graph, and a command ends in each phase only with
what the graph says; reset apart. Of every step of every agent, and of every command step. -/
def Obligations.PhaseMovesOnlyAlongTheGraph : Prop :=
  ∀ s, BlockInv s →
    (∀ t, step s = .next t → t.ph = s.ph ∨ phaseMove s t ∨ (pendingEvent s = .reset ∧ t.ph = .idle)) ∧
    (∀ i t, s.busy = true → decode (commandWord s) = .ok i → exec i s = .next t → phaseMove s t)

/-- 42_sequencer R230 (decision D7): TS <- NOW and TS_VALID <- 1 happen at the `ok` outcome of WRITE, of DRAIN and at
the end step of READ, a short write and an empty read included, and nowhere else; reset apart. -/
def Obligations.TimestampMovesInThreePhasesOnly : Prop :=
  (∀ i s t, exec i s = .next t →
    (t.ts = s.ts ∧ t.tsValid = s.tsValid) ∨
    (t.ts = s.now ∧ t.tsValid = true ∧ s.busy = true ∧ s.draw.fault = false ∧
      (s.ph = .write ∨ (s.ph = .drain ∧ t.ph = .gapr) ∨ (s.ph = .read ∧ t.ph ≠ .read)))) ∧
  (∀ i s t, exec i s = .next t → modbus i → s.busy = true → s.draw.fault = false →
    (s.ph = .write ∨ (s.ph = .drain ∧ t.ph = .gapr) ∨ (s.ph = .read ∧ t.ph ≠ .read)) →
    t.ts = s.now ∧ t.tsValid = true) ∧
  (∀ s t, step s = .next t → pendingEvent s ≠ .reset →
    (t.ts = s.ts ∧ t.tsValid = s.tsValid) ∨
    (t.ts = s.now ∧ t.tsValid = true ∧ s.busy = true ∧ (s.ph = .write ∨ s.ph = .drain ∨ s.ph = .read)))

/-- 42_sequencer R206: WRITE and READ are entered only at a NOW at least 3000 microseconds after TS, TS being kept;
before any TS, at once (R204). -/
def Obligations.NoWriteOrReadWithinTheGap : Prop :=
  ∀ i s t, exec i s = .next t → s.busy = true →
    ((s.ph = .gapw ∧ t.ph = .write) ∨ (s.ph = .gapr ∧ t.ph = .read)) →
    (s.tsValid = true → s.ts + 3000 ≤ s.now) ∧ t.ts = s.ts ∧ t.now = s.now

/-- 10_state R34: XPORT changes only by a successful INIT, which opens it, by an invalidating error, which closes it
and empties the queues, and by reset. -/
def Obligations.TransportStateTransitions : Prop :=
  ∀ s t, step s = .next t → t.xport = s.xport ∨
    (s.busy = true ∧ s.ph = .init ∧ t.xport = .opened ∧ t.ph = .flush ∧ t.rxq = [] ∧ t.txq = []) ∨
    (s.busy = true ∧ (t.err = some .systemCall ∨ t.err = some .consistency) ∧ t.done = true ∧ t.xport = .closed ∧
      t.rxq = [] ∧ t.txq = []) ∨
    (pendingEvent s = .reset ∧ t.xport = .uninitialized)

/-- 10_state R47: each phase of a command writes only the state the rule lists for it, for every command. -/
def Obligations.EachPhaseWritesOnlyItsOwnState : Prop :=
  ∀ i s t, s.busy = true → exec i s = .next t → phaseFrame s t

/-- 60_exceptions R285: a command never writes its operand registers, CFG or WDATA, nor its inputs, nor the wire
history, which is the line agent's. -/
def Obligations.CommandsLeaveOperandsAlone : Prop :=
  ∀ i s t, exec i s = .next t →
    commandWord t = commandWord s ∧ t.cfg = s.cfg ∧ t.wdata = s.wdata ∧ t.now = s.now ∧ t.draw = s.draw ∧
    t.agenda = s.agenda ∧ t.wire = s.wire

/-- 60_exceptions R283: whichever command and phase raises an error, the command is over, no result is offered, and the
transport is closed with empty queues exactly for the two kinds that invalidate it. -/
def Obligations.EveryErrorEndsItsCommand : Prop :=
  ∀ s i t k, BlockInv s → s.busy = true → decode (commandWord s) = .ok i → exec i s = .next t → t.err = some k →
    t.busy = false ∧ t.done = true ∧ t.ph = .idle ∧ t.resLen = 0 ∧
    ((k = .systemCall ∨ k = .consistency) → t.xport = .closed ∧ t.rxq = [] ∧ t.txq = []) ∧
    (k ≠ .systemCall → k ≠ .consistency → t.xport = s.xport)

/-- 42_sequencer R232, 70_reset_and_hazards R311: an idle block stays idle, with its results as the last command left
them, until the host writes CTRL.START = 1; reset apart. -/
def Obligations.IdleUntilTheHostStarts : Prop :=
  ∀ s t, step s = .next t → s.busy = false → s.ph = .idle → pendingEvent s ≠ .reset →
    (t.busy = false ∧ t.ph = .idle ∧ t.done = s.done ∧ t.err = s.err ∧ t.exc = s.exc ∧ t.excCode = s.excCode ∧
      t.rxn = s.rxn ∧ t.resLen = s.resLen ∧ t.reqLen = s.reqLen ∧ t.repLen = s.repLen ∧ t.crcOut = s.crcOut ∧
      t.xport = s.xport) ∨
    (∃ v, pendingEvent s = .host (.write .ctrl v) ∧ v.getLsbD 0 = true ∧ t.busy = true ∧ t.ph = .check)

/-- 20_memory R60, R62, R63, R65: each buffer has one writer: REQ the BUILD phase, REP the READ byte step, RDATA the
EXTRACT phase, WDATA the host while no command runs; reset apart. That a host write of an entry of the other three is
ignored is the model's choice, log 27. -/
def Obligations.BuffersHaveOneWriterEach : Prop :=
  ∀ s t, step s = .next t → pendingEvent s ≠ .reset →
    (t.req = s.req ∨ (s.busy = true ∧ s.ph = .build)) ∧
    (t.rep = s.rep ∨ (s.busy = true ∧ s.ph = .read ∧ t.ph = .read ∧ t.rxn = s.rxn + 1)) ∧
    (t.rdata = s.rdata ∨ (s.busy = true ∧ s.ph = .extract ∧ t.done = true)) ∧
    (t.wdata = s.wdata ∨ (s.busy = false ∧ ∃ i b, pendingEvent s = .host (.writeBuffer .wdata i b)))

/-- One healthy transaction from START to completion, its moves pinned on the agenda (log 3), for every Modbus
operation in range and every reply of the predetermined length that carries a valid CRC and the echo or identity the
operation asks for (43_operations R241 to R247): the wire shows the request once, in order, then the reply
(42_sequencer R234); the counters grow by the two lengths; the command ends without error, its result in RDATA. The
wire shows a request byte itself with 8 data bits and a free value with fewer, log 13. The order of the coils in their
bytes is log 17, the five-byte header of the rdBytes reply log 18. -/
def Obligations.HealthyTransactionCompletes : Prop :=
  ∀ s i p data reply tw tr rest,
    decode (commandWord s) = .ok i → planOf i = some p → accepted i = true →
    readRange .wdata 0 p.dataLen s = some data →
    s.busy = false → s.xport = .opened → (s.tsValid = true → s.ts + 3000 ≤ tw) → tw + 3000 ≤ tr →
    reply.length = p.replyLen → validate reply = true →
    (match p.echo with
      | some len => reply.take len = (p.request data).take len
      | none => reply.take 2 = [p.slave, p.fcode]) →
    s.agenda = healthyAgenda (p.request data).length reply tw tr ++ rest →
    ∃ t, Host.Core.run Sys2Proof.core (healthyAgenda (p.request data).length reply tw tr).length s = .next t ∧
      t.busy = false ∧ t.done = true ∧ t.err = none ∧ t.exc = false ∧ t.ph = .idle ∧ t.xport = .opened ∧
      t.txCount = s.txCount + BitVec.ofNat 64 (p.request data).length ∧
      t.rxCount = s.rxCount + BitVec.ofNat 64 reply.length ∧
      t.ts = tr ∧ t.tsValid = true ∧ t.rxq = [] ∧ t.txq = [] ∧ t.agenda = rest ∧
      t.wire = s.wire ++ (p.request data).map (fun d => .tx (onWire s.cfgAct d) tw) ++ reply.map (fun d => .rx d tr) ∧
      holdsResult p.result reply t

/-! ## The phases -/

/-- 42_sequencer R190 (decision D2): the host's CTRL.START = 1 while BUSY = 0, whatever OP holds; and so every command
starts alike. -/
def Obligations.StartBeginsEveryCommand : Prop :=
  ∀ s, s.busy = false → hostStep (.write .ctrl 1) s = .next (started s) ∧ ∀ i, exec i s = .next (started s)

/-- 42_sequencer R192 (decision D21; D19, D20 and D33 give cases 1 to 3): CHECK does the first of the six that applies,
and writes nothing else. -/
def Obligations.CheckRunsItsSixTestsInOrder : Prop :=
  ∀ s, running .check s → runCommand s = .next
    (if s.op ∉ [0x01, 0x03, 0x05, 0x06, 0x10, 0x41, 0x42, 0xF0, 0xF1] then endedWith .bounds s
     else if s.op ∈ [0xF0, 0xF1] then (if 256 < s.count.toNat then endedWith .bounds s else { s with ph := .crcop })
     else if s.slave = 0 then endedWith .bounds s
     else if s.op ∈ [0x10, 0x42] ∧ s.count = 0 then endedOk s
     else if countOutside s.op s.count.toNat then endedWith .bounds s
     else passesCheck s)

/-- 42_sequencer R194: the accepted counts of every Modbus operation, the empty writes that complete at once, and
BoundsError with no other effect outside them. -/
def Obligations.CountBoundsOfEveryOperation : Prop :=
  ∀ s a m n t, running .check s → a ≠ 0 →
    (exec (.rdCoils a m n t) s =
      .next (if 1 ≤ n.toNat ∧ n.toNat ≤ 2000 then passesCheck s else endedWith .bounds s)) ∧
    (exec (.rdRegisters a m n t) s =
      .next (if 1 ≤ n.toNat ∧ n.toNat ≤ 125 then passesCheck s else endedWith .bounds s)) ∧
    exec (.wrCoil a m n t) s = .next (passesCheck s) ∧ exec (.wrRegister a m n t) s = .next (passesCheck s) ∧
    (exec (.wrRegisters a m n t) s =
      .next (if n = 0 then endedOk s else if n.toNat ≤ 123 then passesCheck s else endedWith .bounds s)) ∧
    (exec (.rdBytes a m n t) s =
      .next (if 1 ≤ n.toNat ∧ n.toNat ≤ 249 then passesCheck s else endedWith .bounds s)) ∧
    (exec (.wrBytes a m n t) s =
      .next (if n = 0 then endedOk s else if n.toNat ≤ 249 then passesCheck s else endedWith .bounds s))

/-- 42_sequencer R193: an empty write completes at once with ERR = 0 and RES_LEN = 0 and touches nothing but BUSY,
DONE, ERR and PH, whatever the transport's state; a read of nothing is a BoundsError. -/
def Obligations.EmptyWritesCompleteAtOnce : Prop :=
  ∀ s a m t, running .check s → a ≠ 0 → s.resLen = 0 →
    exec (.wrRegisters a m 0 t) s = .next { endedOk s with resLen := 0 } ∧
    exec (.wrBytes a m 0 t) s = .next { endedOk s with resLen := 0 } ∧
    exec (.rdCoils a m 0 t) s = .next (endedWith .bounds s) ∧
    exec (.rdRegisters a m 0 t) s = .next (endedWith .bounds s) ∧
    exec (.rdBytes a m 0 t) s = .next (endedWith .bounds s)

/-- 30_encoding R121 (decision D20) and the order of 42_sequencer R192: SLAVE = 0 ends every Modbus operation in CHECK
with BoundsError and no other effect, an empty write too. -/
def Obligations.SlaveZeroIsRefused : Prop :=
  ∀ i s, running .check s → modbus i → i.slaveField = 0 → exec i s = .next (endedWith .bounds s)

/-- 30_encoding R120 (decision D19): an OP outside the nine starts like any other and completes in CHECK with
BoundsError and no other effect. -/
def Obligations.IllegalOpEndsInBoundsError : Prop :=
  ∀ s, s.op ∉ [0x01, 0x03, 0x05, 0x06, 0x10, 0x41, 0x42, 0xF0, 0xF1] →
    (s.busy = false → runCommand s = .next (start s)) ∧ (running .check s → runCommand s = .next (endedWith .bounds s))

/-- 42_sequencer R195: INIT is entered from CHECK exactly when a Modbus operation passed its checks and the transport
is not open; the other phases that run a port operation run only with an open one. -/
def Obligations.InitIsEnteredExactlyWithoutATransport : Prop :=
  (∀ i s t, exec i s = .next t → s.busy = true → s.ph ≠ .init →
    (t.ph = .init ↔ s.ph = .check ∧ modbus i ∧ accepted i = true ∧ s.xport ≠ .opened)) ∧
  (∀ s t, BlockInv s → step s = .next t → s.ph ≠ .init → t.ph = .init → s.ph = .check ∧ s.xport ≠ .opened) ∧
  ∀ s, BlockInv s → (s.ph = .flush ∨ s.ph = .write ∨ s.ph = .drain ∨ s.ph = .read) → s.xport = .opened

/-- 42_sequencer R196 with 41_transport_port R162: INIT opens the transport with CFG, or ends the command with the
error of OPEN's outcome; TS is not touched. -/
def Obligations.InitOpensOrInvalidates : Prop :=
  ∀ i s, modbus i → running .init s →
    (s.draw.openAnswer = .ok → exec i s = .next
      { s with xport := .opened, cfgAct := s.cfg, rxq := [], txq := [], rxCount := 0, txCount := 0, ph := .flush }) ∧
    (s.draw.openAnswer = .fault → exec i s = .next (endedInvalid .systemCall s)) ∧
    (s.draw.openAnswer = .mismatch → exec i s = .next (endedInvalid .consistency s))

/-- 42_sequencer R197 (decision D7): after FLUSH both queues are empty and TS is as it was; a fault of the port
operation invalidates the transport. -/
def Obligations.FlushEmptiesBothQueues : Prop :=
  ∀ i s, modbus i → running .flush s →
    (s.draw.fault = false → exec i s = .next { s with rxq := [], txq := [], ph := .build }) ∧
    (s.draw.fault = true → exec i s = .next (endedInvalid .systemCall s))

/-- 41_transport_port R172 (the spec's decision D32) and 42_sequencer R219: a fault of any port operation, and a mismatch
of OPEN, closes the transport, empties both queues and ends the command with SystemCallError, or ConsistencyError; TS,
TS_VALID, RX_COUNT, TX_COUNT, and what READ has received, keep their values. -/
def Obligations.TransportFaultInvalidates : Prop :=
  ∀ i s, modbus i → s.busy = true →
    ((s.ph = .flush ∨ s.ph = .write ∨ s.ph = .drain ∨ s.ph = .read) → s.draw.fault = true →
      exec i s = .next (endedInvalid .systemCall s)) ∧
    (s.ph = .init → s.draw.openAnswer = .fault → exec i s = .next (endedInvalid .systemCall s)) ∧
    (s.ph = .init → s.draw.openAnswer = .mismatch → exec i s = .next (endedInvalid .consistency s))

/-- 42_sequencer R198, R199 and R200: the request frame of every Modbus operation, byte by byte, its CRC, and its
predetermined reply length. Big-endian address, count and value are log 20 (decision D16), the reply length 7 + N of
rdBytes is log 18 (decision D15), the coil value is decision D22, the CRC's constant and byte order log 16 (D17). -/
def Obligations.BuildOfEveryRequest : Prop :=
  ∀ s a m n t, running .build s →
    (n.toNat ≤ 2000 →
      builds (.rdCoils a m n t) s [a, 0x01, hi8 m, lo8 m, hi8 n, lo8 n] (5 + (n.toNat + 7) / 8)) ∧
    (n.toNat ≤ 125 → builds (.rdRegisters a m n t) s [a, 0x03, hi8 m, lo8 m, hi8 n, lo8 n] (5 + 2 * n.toNat)) ∧
    builds (.wrCoil a m n t) s [a, 0x05, hi8 m, lo8 m, if n ≠ 0 then 0xFF else 0x00, 0x00] 8 ∧
    builds (.wrRegister a m n t) s [a, 0x06, hi8 m, lo8 m, hi8 n, lo8 n] 8 ∧
    (n.toNat ≤ 249 → builds (.rdBytes a m n t) s [a, 0x41, hi8 m, lo8 m, lo8 n] (7 + n.toNat)) ∧
    (∀ data, n.toNat ≤ 123 → readRange .wdata 0 (2 * n.toNat) s = some data →
      builds (.wrRegisters a m n t) s
        ([a, 0x10, hi8 m, lo8 m, hi8 n, lo8 n, BitVec.ofNat 8 (2 * n.toNat)] ++ data) 8) ∧
    (∀ data, n.toNat ≤ 249 → readRange .wdata 0 n.toNat s = some data →
      builds (.wrBytes a m n t) s ([a, 0x42, hi8 m, lo8 m, lo8 n] ++ data) (7 + n.toNat))

/-- 42_sequencer R203 with R205 and R215: the four cases of the gap step in their order, of GAPW and of GAPR: NOW <= TS
is a TimingError that leaves TS and the transport; entering READ samples T0 and computes DL. That a step without a TS
passes at once and that the gap ends at TS + 3000 are decisions D6 and D8, log 26. -/
def Obligations.GapStepFourCases : Prop :=
  ∀ i s, modbus i → s.busy = true →
    (s.ph = .gapw → exec i s = .next
      (if s.tsValid = false then { s with ph := .write }
       else if s.now ≤ s.ts then endedWith .timing s
       else if s.ts + 3000 ≤ s.now then { s with ph := .write } else s)) ∧
    (s.ph = .gapr → exec i s = .next
      (if s.tsValid = false then { s with t0 := s.now, dl := i.timeoutField.toNat * 1000, ph := .read }
       else if s.now ≤ s.ts then endedWith .timing s
       else if s.ts + 3000 ≤ s.now then { s with t0 := s.now, dl := i.timeoutField.toNat * 1000, ph := .read }
       else s))

/-- 42_sequencer R208: WRITE hands the accepted bytes of the frame to TXQ, counts and stamps them, and fails with
RequestError when they are not all; on a fault the transport is invalidated and TS is not written. -/
def Obligations.WriteHandsOverTheFrame : Prop :=
  ∀ i s, modbus i → running .write s →
    (s.draw.fault = true → exec i s = .next (endedInvalid .systemCall s)) ∧
    (∀ bs, s.draw.fault = false → readRange .req 0 (min s.draw.accepts s.reqLen.toNat) s = some bs →
      exec i s = .next
        (if s.draw.accepts < s.reqLen.toNat then
          { s with txq := s.txq ++ bs, txCount := s.txCount + BitVec.ofNat 64 s.draw.accepts, ts := s.now, tsValid := true,
                   err := some .request, busy := false, done := true, ph := .idle }
         else
          { s with txq := s.txq ++ bs, txCount := s.txCount + BitVec.ofNat 64 s.reqLen.toNat, ts := s.now, tsValid := true,
                   ph := .drain }))

/-- 42_sequencer R209: DRAIN completes, stamping TS, only when TXQ is empty, and waits otherwise; a fault invalidates
the transport. -/
def Obligations.DrainWaitsForTheLine : Prop :=
  ∀ i s, modbus i → running .drain s →
    (s.draw.fault = true → exec i s = .next (endedInvalid .systemCall s)) ∧
    (s.draw.fault = false →
      exec i s = .next (if s.txq = [] then { s with ts := s.now, tsValid := true, ph := .gapr } else s))

/-- 42_sequencer R216: the READ byte step, when the deadline has not passed or the draw prefers it (log 4). -/
def Obligations.ReadTakesOneByte : Prop :=
  ∀ i s d q, modbus i → running .read s → s.draw.fault = false → s.rxq = d :: q →
    s.rxn.toNat < s.repLen.toNat → s.repLen.toNat ≤ 256 → (s.now < s.t0 + s.dl ∨ s.draw.takesByte = true) →
    ∃ t, exec i s = .next t ∧ readByte .rep s.rxn.toNat t = d ∧ t.rxn.toNat = s.rxn.toNat + 1 ∧
      t = { s with rep := t.rep, rxq := q, rxn := s.rxn + 1, rxCount := s.rxCount + 1 } ∧
      ∀ j, j ≠ s.rxn.toNat → readByte .rep j t = readByte .rep j s

/-- 42_sequencer R217: the READ end step, when the byte step is not the one taken (log 4): TimeoutError if nothing
came, VCRC otherwise. -/
def Obligations.ReadEndsFullOrExpired : Prop :=
  ∀ i s, modbus i → running .read s → s.draw.fault = false → (s.rxn = s.repLen ∨ s.t0 + s.dl ≤ s.now) →
    (s.rxq = [] ∨ s.repLen.toNat ≤ s.rxn.toNat ∨ s.draw.takesByte = false) → exec i s = .next (endsRead s)

/-- 42_sequencer R217, R218(c): READ waits while nothing has arrived and the deadline has not passed; so a TimeoutError
comes only with no byte received and NOW at or after T0 + DL. -/
def Obligations.TimeoutFloor : Prop :=
  (∀ i s, modbus i → running .read s → s.draw.fault = false → s.rxq = [] → s.rxn ≠ s.repLen → s.now < s.t0 + s.dl →
    exec i s = .next s) ∧
  (∀ i s t, exec i s = .next t → s.busy = true → s.err = none → s.repLen ≠ 0 → t.err = some .timeout →
    s.ph = .read ∧ s.rxn = 0 ∧ s.t0 + s.dl ≤ s.now)

/-- 42_sequencer R218(b), decision D31: with bytes waiting and the deadline passed, the draw admits the byte step and
the end step both (log 4). -/
def Obligations.DeadlineRaceAdmitsBothOrders : Prop :=
  ∀ i s d q, modbus i → running .read s → s.rxq = d :: q → s.rxn.toNat < s.repLen.toNat → s.repLen.toNat ≤ 256 →
    s.t0 + s.dl ≤ s.now →
    (∃ t, exec i { s with draw := { s.draw with fault := false, takesByte := true } } = .next t ∧
      t.rxn = s.rxn + 1 ∧ t.rxq = q ∧ t.ph = .read) ∧
    (∃ t, exec i { s with draw := { s.draw with fault := false, takesByte := false } } = .next t ∧
      t.rxn = s.rxn ∧ t.rxq = d :: q ∧ t.ph = if s.rxn = 0 then .idle else .vcrc)

/-- 42_sequencer R222 (decision D12): VCRC over the received prefix. -/
def Obligations.VcrcChecksTheReceivedPrefix : Prop :=
  ∀ i s f, modbus i → running .vcrc s → readRange .rep 0 s.rxn.toNat s = some f →
    (s.rxn.toNat < 3 → exec i s = .next (endedWith .crc s)) ∧
    (3 ≤ s.rxn.toNat → exec i s = .next
      (let c := crc16 (f.take (s.rxn.toNat - 2))
       if cat8 (readByte .rep (s.rxn.toNat - 1) s) (readByte .rep (s.rxn.toNat - 2) s) = c then
         { s with crcAcc := c, crcOut := c, ph := .vid }
       else { endedWith .crc s with crcAcc := c, crcOut := c }))

/-- 42_sequencer R223: VID of the write operations: exception detection, then the whole predetermined length and the
first 6 bytes (wrBytes: the first 5 + COUNT) of the request, or ReplyError. The effect of an exception frame is R226
(decision D14), the test of the length R225 (decision D13). -/
def Obligations.WritesAreAcceptedByTheirEcho : Prop :=
  ∀ i s len got sent, running .vid s →
    ((∃ a m v t, i = .wrCoil a m v t ∧ len = 6) ∨ (∃ a m v t, i = .wrRegister a m v t ∧ len = 6) ∨
     (∃ a m n t, i = .wrRegisters a m n t ∧ len = 6) ∨
     (∃ a m n t, i = .wrBytes a m n t ∧ n.toNat ≤ 249 ∧ len = 5 + n.toNat)) →
    readRange .rep 0 len s = some got → readRange .req 0 len s = some sent →
    exec i s = .next
      (if s.rxn = s.repLen ∧ got = sent then { noted s with ph := .extract } else endedWith .reply (noted s))

/-- 42_sequencer R224: VID of the read operations: exception detection, then address, function code and length, or
ReplyError. The effect of an exception frame is R226 (decision D14), the test of the length R225 (decision D13); that no
other byte decides is 30_encoding R117 (decision D23), log 26. -/
def Obligations.ReadsAreAcceptedByTheirIdentity : Prop :=
  ∀ i s, running .vid s →
    ((∃ a m n t, i = .rdCoils a m n t) ∨ (∃ a m n t, i = .rdRegisters a m n t) ∨ (∃ a m n t, i = .rdBytes a m n t)) →
    exec i s = .next
      (if readByte .rep 0 s = readByte .req 0 s ∧ readByte .rep 1 s = readByte .req 1 s ∧ s.rxn = s.repLen then
        { noted s with ph := .extract } else endedWith .reply (noted s))

/-- 42_sequencer R226, decision D14: an exception frame sets EXC and EXC_CODE and ends every Modbus operation with
ReplyError, every predetermined length being greater than 5 (30_encoding R114). -/
def Obligations.ExceptionFramesAreReported : Prop :=
  ∀ i s, modbus i → running .vid s → 6 ≤ s.repLen.toNat → exceptionReply s →
    exec i s = .next { endedWith .reply s with exc := true, excCode := readByte .rep 2 s }

/-- 42_sequencer R227: the coil flags, one per entry. The least significant bit first is 20_memory R68 (conflict C1,
decision D18), log 17. -/
def Obligations.ExtractOfCoils : Prop :=
  ∀ s a m n t, running .extract s → n.toNat ≤ 2000 →
    extracts (.rdCoils a m n t) s ((List.range n.toNat).map fun k =>
      if (readByte .rep (3 + k / 8) s).getLsbD (k % 8) then 1 else 0)

/-- 42_sequencer R228: the two bytes of each word, high byte at the even index, from index 3 of REP. -/
def Obligations.ExtractOfRegisters : Prop :=
  ∀ s a m n t, running .extract s → n.toNat ≤ 125 → ∃ u, exec (.rdRegisters a m n t) s = .next u ∧
    (∀ k, k < n.toNat → readByte .rdata (2 * k) u = readByte .rep (3 + 2 * k) s ∧
      readByte .rdata (2 * k + 1) u = readByte .rep (4 + 2 * k) s) ∧
    u = { endedOk s with rdata := u.rdata, resLen := BitVec.ofNat 11 (2 * n.toNat) } ∧
    ∀ j, 2 * n.toNat ≤ j → readByte .rdata j u = readByte .rdata j s

/-- 42_sequencer R229: the raw bytes of rdBytes; the write operations have nothing to extract and complete. That the
bytes begin at index 5 of REP is the header of log 18 (conflict C5, decision D15). -/
def Obligations.ExtractOfBytesAndOfWrites : Prop :=
  ∀ s a m n t, running .extract s →
    (n.toNat ≤ 249 → extracts (.rdBytes a m n t) s ((List.range n.toNat).map fun k => readByte .rep (5 + k) s)) ∧
    exec (.wrCoil a m n t) s = .next (endedOk s) ∧ exec (.wrRegister a m n t) s = .next (endedOk s) ∧
    exec (.wrRegisters a m n t) s = .next (endedOk s) ∧ exec (.wrBytes a m n t) s = .next (endedOk s)

/-- 42_sequencer R231 (decision D33): crcCompute leaves the CRC of WDATA[0 : COUNT] in CRC_OUT and CRC_ACC and
completes; crcValidate fails below three bytes with CRC_OUT unchanged, otherwise CRC_OUT shows the CRC of all but the
last two bytes and the command ends by the comparison. Transport, TS, queues and counters are untouched. -/
def Obligations.CrcopComputesOrValidates : Prop :=
  ∀ s n bs, running .crcop s → readRange .wdata 0 n.toNat s = some bs →
    exec (.crcCompute n) s = .next { endedOk s with crcAcc := crc16 bs, crcOut := crc16 bs } ∧
    (n.toNat < 3 → exec (.crcValidate n) s = .next (endedWith .crc s)) ∧
    (3 ≤ n.toNat → exec (.crcValidate n) s = .next
      (let c := crc16 (bs.take (n.toNat - 2))
       if cat8 (readByte .wdata (n.toNat - 1) s) (readByte .wdata (n.toNat - 2) s) = c then
         { endedOk s with crcAcc := c, crcOut := c }
       else { endedWith .crc s with crcAcc := c, crcOut := c }))

/-- 20_memory R69: bits of the last coil byte beyond COUNT reach no flag: replies that agree on the COUNT coil bits
give the same RDATA and the same state but for REP. -/
def Obligations.PaddingBitsReachNoFlag : Prop :=
  ∀ s a m n t r u, running .extract s → n.toNat ≤ 2000 →
    (∀ k, k < n.toNat → (readByte .rep (3 + k / 8) s).getLsbD (k % 8) =
      (readByte .rep (3 + k / 8) { s with rep := r }).getLsbD (k % 8)) →
    exec (.rdCoils a m n t) s = .next u → exec (.rdCoils a m n t) { s with rep := r } = .next { u with rep := r }

/-- 30_encoding R117 (decision D23): in the reply to a read, bytes beyond the address and function code do not decide
VID; EXC_CODE apart, which is written for a 5-byte reply only. -/
def Obligations.ReadRepliesAreAcceptedWhateverTheirByteCount : Prop :=
  ∀ s i r u, running .vid s → s.rxn ≠ 5 →
    ((∃ a m n t, i = .rdCoils a m n t) ∨ (∃ a m n t, i = .rdRegisters a m n t) ∨ (∃ a m n t, i = .rdBytes a m n t)) →
    readByte .rep 0 { s with rep := r } = readByte .rep 0 s → readByte .rep 1 { s with rep := r } = readByte .rep 1 s →
    exec i s = .next u → exec i { s with rep := r } = .next { u with rep := r }

/-! ## The CRC unit -/

/-- 40_crc16 R141: appending the CRC and validating succeeds, for every non-empty byte sequence; for the empty one it
does not (R140, conflict C8). -/
def Obligations.CrcRoundTrip : Prop :=
  (∀ bs : List Byte, bs ≠ [] → validate (appendCrc bs) = true) ∧ validate (appendCrc []) = false

/-- 40_crc16 R142: any single inverted bit of a frame is detected, with the polynomial of log 16. -/
def Obligations.SingleBitErrorsAreDetected : Prop :=
  ∀ (f : List Byte) (k j : Nat) (b : Byte), validate f = true → f[k]? = some b → j < 8 →
    validate (f.set k (b ^^^ BitVec.ofNat 8 (2 ^ j))) = false

/-- 40_crc16 R143: over a frame with its CRC the generator leaves zero, and a checker by residue agrees with `validate`
from three bytes on. -/
def Obligations.CrcResidueIsZero : Prop :=
  (∀ bs : List Byte, crc16 (appendCrc bs) = 0) ∧ ∀ f : List Byte, 3 ≤ f.length → (validate f = true ↔ crc16 f = 0)

/-- 40_crc16 R137: the table-driven unit is the same function. -/
def Obligations.TableDrivenCrcAgrees : Prop := ∀ bs : List Byte, crcTable bs = crc16 bs

/-- 40_crc16 R131, R136 and 95_test_vectors 2.1: values of the generator. They rest on the polynomial the spec takes
from general knowledge (log 16). -/
def Obligations.CrcKnownValues : Prop :=
  crcBit 0xFFFF = 0xDFFE ∧ crcBit 0x0001 = 0xA001 ∧ crcByte 0xFFFF 0x01 = 0x807E ∧ crc16 [] = 0xFFFF ∧
  crc16 [0x00] = 0x40BF ∧ crc16 [0xFF] = 0x00FF ∧ crc16 [0xFF, 0xFF] = 0x0000 ∧ crc16 [0x00, 0x00] = 0xB001 ∧
  crc16 [0x31, 0x32, 0x33, 0x34, 0x35, 0x36, 0x37, 0x38, 0x39] = 0x4B37 ∧
  appendCrc [0x01, 0x03, 0x00, 0x00, 0x00, 0x0A] = [0x01, 0x03, 0x00, 0x00, 0x00, 0x0A, 0xC5, 0xCD]

/-! ## Host, line, reset -/

/-- 10_state R29, R33, R34 and 60_exceptions R271: every field of STATUS, in every state, and the numbers of the error
kinds, the transport states and the phases. -/
def Obligations.StatusFieldsAreWhereTheSpecPutsThem : Prop :=
  (∀ s, (statusWord s).getLsbD 0 = s.busy ∧ (statusWord s).getLsbD 1 = s.done ∧
    (statusWord s).extractLsb' 2 4 = errCode s.err ∧ (statusWord s).getLsbD 6 = s.exc ∧
    (statusWord s).extractLsb' 7 2 = s.xport.code ∧ (statusWord s).getLsbD 9 = s.tsValid ∧
    (statusWord s).extractLsb' 10 22 = 0) ∧
  [none, some .systemCall, some .consistency, some .bounds, some .request, some .timeout, some .crc, some .reply,
    some .timing].map errCode = [0, 1, 2, 3, 4, 5, 6, 7, 8] ∧
  [XPort.uninitialized, .opened, .closed].map XPort.code = [0, 1, 2] ∧
  [Phase.idle, .check, .init, .flush, .build, .gapw, .write, .drain, .gapr, .read, .vcrc, .vid, .extract, .crcop].map
    Phase.code = [0, 1, 2, 3, 4, 5, 6, 7, 8, 9, 10, 11, 12, 13]

/-- 10_state R46 and 70_reset_and_hazards R310, R312 (decision D28): a reset, also while a command runs, gives every
piece of state the value the table states; what the table leaves unspecified is not claimed. -/
def Obligations.ResetGivesTheTableValues : Prop :=
  ∀ s, pendingEvent s = .reset → ∃ t, step s = .next t ∧
    t.ph = .idle ∧ t.busy = false ∧ t.done = false ∧ t.err = none ∧ t.exc = false ∧ t.xport = .uninitialized ∧
    t.tsValid = false ∧ t.op = 0 ∧ t.slave = 0 ∧ t.maddr = 0 ∧ t.count = 0 ∧ t.value = 0 ∧ t.timeoutMs = 0 ∧
    t.cfg = 0x74 ∧ t.rxn = 0 ∧ t.resLen = 0 ∧ t.reqLen = 0 ∧ t.repLen = 0 ∧ t.excCode = 0 ∧ t.crcOut = 0xFFFF ∧
    t.crcAcc = 0xFFFF ∧ t.rxCount = 0 ∧ t.txCount = 0 ∧ t.rxq = [] ∧ t.txq = [] ∧ statusWord t = 0

/-- 10_state R44: while BUSY = 0 the host writes an operand register and nothing else changes, a value wider than the
register being cut to its low bits (the model's choice, log 15); while BUSY = 1 such a write is refused, and so is START (93 U1, log 10); a write to a read-only register is
ignored at any time. -/
def Obligations.HostRegisterWrites : Prop :=
  ∀ s v, (s.busy = false →
      hostStep (.write .op v) s = .next { s with op := v.setWidth 8 } ∧
      hostStep (.write .slave v) s = .next { s with slave := v.setWidth 8 } ∧
      hostStep (.write .maddr v) s = .next { s with maddr := v.setWidth 16 } ∧
      hostStep (.write .count v) s = .next { s with count := v.setWidth 16 } ∧
      hostStep (.write .value v) s = .next { s with value := v.setWidth 16 } ∧
      hostStep (.write .timeoutMs v) s = .next { s with timeoutMs := v.setWidth 32 }) ∧
    (s.busy = true → (∀ r ∈ [Reg.op, .slave, .maddr, .count, .value, .timeoutMs],
        hostStep (.write r v) s = .refused (.operandWhileBusy r)) ∧
      (∀ i b, hostStep (.writeBuffer .wdata i b) s = .refused .wdataWhileBusy) ∧
      (v.getLsbD 0 = true → hostStep (.write .ctrl v) s = .refused .startWhileBusy)) ∧
    (∀ r ∈ [Reg.status, .rxn, .resLen, .excCode, .crcOut, .rxCount, .txCount, .ph, .reqLen, .repLen, .ts],
      hostStep (.write r v) s = .next s)

/-- 10_state R44, 20_memory R60: a host write of WDATA while BUSY = 0 stores one byte at an index the buffer has,
leaves every other byte and everything else, and faults at an index it has not (log 11); a host write of an entry of
RDATA, REQ or REP is ignored at any time (the model's choice, log 27). -/
def Obligations.HostWritesWdata : Prop :=
  ∀ s i b,
    (s.busy = false → i < 256 → ∃ t, hostStep (.writeBuffer .wdata i b) s = .next t ∧ readByte .wdata i t = b ∧
      (∀ j, j ≠ i → readByte .wdata j t = readByte .wdata j s) ∧ t = { s with wdata := t.wdata }) ∧
    (s.busy = false → 256 ≤ i → hostStep (.writeBuffer .wdata i b) s = .fault (.noSuchIndex .wdata)) ∧
    (∀ x ∈ [(Space.rdata, 2000), (.req, 256), (.rep, 256)], hostStep (.writeBuffer x.1 i b) s =
      if i < x.2 then .next s else .fault (.noSuchIndex x.1))

/-- 10_state R35: a write of CFG, at any time, writes BAUD, DBITS and SBITS, and PARITY unless its value is the
reserved 3, which leaves PARITY unchanged; nothing else changes. Of a value wider than CFG the low 8 bits count (the
model's choice, log 15). 00_scope R7: the fields name the legal baud rates,
parities, data bits and stop bits, each value its own (decision D26), and 0x74 the defaults. -/
def Obligations.CfgKeepsALegalParity : Prop :=
  ∀ s v, ∃ c, hostStep (.write .cfg v) s = .next { s with cfg := c } ∧
    c.extractLsb' 0 3 = v.extractLsb' 0 3 ∧ c.extractLsb' 5 3 = v.extractLsb' 5 3 ∧
    c.extractLsb' 3 2 = (if v.extractLsb' 3 2 = 3 then s.cfg.extractLsb' 3 2 else v.extractLsb' 3 2) ∧
    (c.extractLsb' 0 3, baudRate c) ∈ [(0, 1200), (1, 2400), (2, 4800), (3, 9600), (4, 19200), (5, 38400), (6, 57600),
      (7, 115200)] ∧
    (c.extractLsb' 3 2, parityOf c) ∈ [(0, some .none), (1, some .odd), (2, some .even), (3, none)] ∧
    (c.extractLsb' 5 2, dataBits c) ∈ [(0, 5), (1, 6), (2, 7), (3, 8)] ∧
    (c.extractLsb' 7 1, stopBits c) ∈ [(0, 1), (1, 2)] ∧
    transportConfig c = (parityOf c).map (fun p => ⟨baudRate c, p, dataBits c, stopBits c⟩) ∧
    transportConfig 0x74 = some ⟨19200, .even, 8, 1⟩

/-- 10_state R28: the counter strobes clear their counters at any time and nothing else; in the same step as a counter
increment the strobe wins; bits above 2 are ignored, those CTRL has not by log 15. -/
def Obligations.CounterStrobes : Prop :=
  (∀ s v, v.getLsbD 0 = false → hostStep (.write .ctrl v) s = .next
    { s with rxCount := if v.getLsbD 1 then 0 else s.rxCount, txCount := if v.getLsbD 2 then 0 else s.txCount }) ∧
  (∀ s d r t, sequencerStep d r s = .next t → (r.rx = true → t.rxCount = 0) ∧ (r.tx = true → t.txCount = 0))

/-- 10_state R44, 20_memory R72: a host read changes nothing in the block. It returns what the register holds,
zero-extended (log 15), and the stored byte of a valid entry: of the six result registers, REQ, REP and RDATA while
BUSY = 0, of TS once there is one, of everything else at any time (log 8). What it returns elsewhere is a free value (log 8,
log 9). -/
def Obligations.HostReadsHaveNoSideEffect : Prop :=
  ∀ s, (∀ r, ∃ v, hostStep (.read r) s = .next { s with hostSaw := v }) ∧
    (∀ sp i, i < spaceSize sp → ∃ v, hostStep (.readBuffer sp i) s = .next { s with hostSaw := v }) ∧
    (∀ r, (r ∈ [Reg.rxn, .resLen, .excCode, .crcOut, .reqLen, .repLen] → s.busy = false) →
      (r = .ts → s.tsValid = true) → hostStep (.read r) s = .next { s with hostSaw := held r s }) ∧
    (∀ i, i < 256 →
      hostStep (.readBuffer .wdata i) s = .next { s with hostSaw := (readByte .wdata i s).setWidth 64 }) ∧
    (s.busy = false → (∀ i, i < s.reqLen.toNat → i < 256 →
        hostStep (.readBuffer .req i) s = .next { s with hostSaw := (readByte .req i s).setWidth 64 }) ∧
      (∀ i, i < s.rxn.toNat → i < 256 →
        hostStep (.readBuffer .rep i) s = .next { s with hostSaw := (readByte .rep i s).setWidth 64 }) ∧
      (∀ i, i < s.resLen.toNat → i < 2000 →
        hostStep (.readBuffer .rdata i) s = .next { s with hostSaw := (readByte .rdata i s).setWidth 64 }))

/-- 41_transport_port R168, 10_state R42 (decision D11): while Open a delivered byte joins RXQ at the tail if there is
room and is dropped otherwise, in every phase; while not Open nothing happens (R174; log 5). The wire history shows a
delivered byte (R175), a dropped one too (the model's choice, log 14). -/
def Obligations.DeliveryFillsTheReceiveQueue : Prop :=
  ∀ s d, (s.xport = .opened → s.rxq.length < Config.rxqDepth →
      deliver d s = { s with rxq := s.rxq ++ [d], wire := s.wire ++ [.rx d s.now] }) ∧
    (s.xport = .opened → Config.rxqDepth ≤ s.rxq.length → deliver d s = { s with wire := s.wire ++ [.rx d s.now] }) ∧
    (s.xport ≠ .opened → deliver d s = s)

/-- 41_transport_port R175 (decision D10), R163: while Open the head of TXQ goes onto the wire, unchanged with 8 data
bits (with fewer the byte is a free value, log 13); with an empty TXQ or a transport not Open nothing happens (R174;
log 5). -/
def Obligations.TransmissionIsQueueOrder : Prop :=
  ∀ s, (∀ d q, s.xport = .opened → s.txq = d :: q → dataBits s.cfgAct = 8 →
      transmit s = { s with txq := q, wire := s.wire ++ [.tx d s.now] }) ∧
    (s.xport ≠ .opened ∨ s.txq = [] → transmit s = s)

/-- 30_encoding R125: the call sequence, run from any idle state, leaves the command in CHECK with its operands in the
registers and its data in WDATA (the host's moves pinned on the agenda, log 3; the registers read as a command word,
log 1). -/
def Obligations.CallSequenceStartsItsCommand : Prop :=
  ∀ s i data rest, s.busy = false → data.length ≤ 256 → s.agenda = callEvents i data ++ rest →
    ∃ t, Host.Core.run Sys2Proof.core (callEvents i data).length s = .next t ∧ running .check t ∧
      decode (commandWord t) = .ok i ∧ t.agenda = rest ∧ ∀ k b, data[k]? = some b → readByte .wdata k t = b
end

