-- ==== Sys2Proof/Laws/Crc.lean ====
section
/-! SUPPORT. The algebra of the CRC generator: it is linear, it loses nothing, and with its low bits clear it is a
shift. And the parts of a frame. -/

namespace Sys2Proof.Machine

/-! ## Linearity -/

@[simp] theorem crcBit_zero : crcBit 0#16 = 0#16 := by decide

theorem crcBit_xor (a b : Word) : crcBit (a ^^^ b) = crcBit a ^^^ crcBit b := by
  unfold crcBit
  rw [BitVec.getLsbD_xor, BitVec.ushiftRight_xor_distrib]
  cases a.getLsbD 0 <;> cases b.getLsbD 0 <;> simp
  · rw [BitVec.xor_assoc]
  · rw [BitVec.xor_assoc, BitVec.xor_assoc, BitVec.xor_comm Config.crcPoly (b >>> 1)]
  · rw [BitVec.xor_assoc, BitVec.xor_comm Config.crcPoly, BitVec.xor_assoc, BitVec.xor_self, BitVec.xor_zero]

@[simp] theorem crcBits_zero (n : Nat) : crcBits n 0#16 = 0#16 := by
  induction n with
  | zero => rfl
  | succ n ih => simp [crcBits, ih]

theorem crcBits_xor (n : Nat) (a b : Word) : crcBits n (a ^^^ b) = crcBits n a ^^^ crcBits n b := by
  induction n generalizing a b with
  | zero => rfl
  | succ n ih => simp only [crcBits, crcBit_xor, ih]

theorem crcByte_xor (a b : Word) (d e : Byte) : crcByte (a ^^^ b) (d ^^^ e) = crcByte a d ^^^ crcByte b e := by
  have h : a ^^^ b ^^^ (d ^^^ e).setWidth 16 = (a ^^^ d.setWidth 16) ^^^ (b ^^^ e.setWidth 16) := by
    rw [BitVec.setWidth_xor]
    ac_rfl
  simp only [crcByte, h, crcBits_xor]

@[simp] theorem crcByte_zero : crcByte 0#16 0#8 = 0#16 := by simp [crcByte]

theorem crcFrom_append (a : Word) (bs cs : List Byte) : crcFrom a (bs ++ cs) = crcFrom (crcFrom a bs) cs := by
  simp [crcFrom, List.foldl_append]

@[simp] theorem crcFrom_nil (a : Word) : crcFrom a [] = a := rfl

@[simp] theorem crcFrom_cons (a : Word) (b : Byte) (bs : List Byte) : crcFrom a (b :: bs) = crcFrom (crcByte a b) bs := rfl

/-- A difference in the accumulator goes on as the generator run over zero bytes. -/
theorem crcFrom_xor (a x : Word) (bs : List Byte) :
    crcFrom (a ^^^ x) bs = crcFrom a bs ^^^ crcFrom x (List.replicate bs.length 0) := by
  induction bs generalizing a x with
  | nil => rfl
  | cons b bs ih =>
    have h : crcByte (a ^^^ x) b = crcByte a b ^^^ crcByte x 0 := by
      have := crcByte_xor a x b 0#8
      rwa [BitVec.xor_zero] at this
    simp only [crcFrom_cons, List.length_cons, List.replicate_succ, h, ih]

/-! ## Nothing is lost -/

theorem crcBit_eq_zero {a : Word} (h : crcBit a = 0) : a = 0 := by
  have top : (a >>> 1).getLsbD 15 = false := by simp
  unfold crcBit at h
  split at h
  · exfalso
    have := congrArg (fun w : Word => w.getLsbD 15) h
    simp only [BitVec.getLsbD_xor, top] at this
    exact absurd this (by decide)
  · next h0 =>
    apply BitVec.eq_of_getLsbD_eq
    intro i hi
    cases i with
    | zero => simpa using h0
    | succ i =>
      have := congrArg (fun w : Word => w.getLsbD i) h
      simpa [BitVec.getLsbD_ushiftRight, Nat.add_comm] using this

theorem crcBits_eq_zero {n : Nat} {a : Word} (h : crcBits n a = 0) : a = 0 := by
  induction n generalizing a with
  | zero => exact h
  | succ n ih => exact crcBit_eq_zero (ih h)

/-- A difference in the accumulator never dies out over zero bytes. -/
theorem crcFrom_zeros_eq_zero {n : Nat} {x : Word} (h : crcFrom x (List.replicate n 0) = 0) : x = 0 := by
  induction n generalizing x with
  | zero => exact h
  | succ n ih =>
    rw [List.replicate_succ, crcFrom_cons] at h
    have := ih h
    simp only [crcByte] at this
    simpa using crcBits_eq_zero this

/-! ## Shifts -/

/-- With its low `n` bits clear the generator is a shift by `n`. -/
theorem crcBits_shift {n : Nat} {a : Word} (h : ∀ i, i < n → a.getLsbD i = false) : crcBits n a = a >>> n := by
  induction n generalizing a with
  | zero => simp [crcBits]
  | succ n ih =>
    have h0 : crcBit a = a >>> 1 := by rw [crcBit, h 0 (Nat.succ_pos n)]; rfl
    rw [crcBits, h0, ih, ← BitVec.shiftRight_add, Nat.add_comm]
    intro i hi
    rw [BitVec.getLsbD_ushiftRight, Nat.add_comm]
    exact h (i + 1) (by omega)

/-! ## The parts of a frame -/

@[simp] theorem cat8_hi8_lo8 (w : Word) : cat8 (hi8 w) (lo8 w) = w := by
  apply BitVec.eq_of_getLsbD_eq
  intro i hi
  simp only [cat8, hi8, lo8, BitVec.getLsbD_append, BitVec.getLsbD_extractLsb']
  by_cases h : i < 8
  · simp [h]
  · have h1 : i - 8 < 8 := by omega
    have h2 : 8 + (i - 8) = i := by omega
    simp [h, h1, h2]

@[simp] theorem hi8_cat8 (a b : Byte) : hi8 (cat8 a b) = a := by
  apply BitVec.eq_of_getLsbD_eq
  intro i hi
  have : ¬ 8 + i < 8 := by omega
  simp only [cat8, hi8, BitVec.getLsbD_extractLsb', BitVec.getLsbD_append, hi, this, decide_true, Bool.true_and, if_false]
  congr 1; omega

@[simp] theorem lo8_cat8 (a b : Byte) : lo8 (cat8 a b) = b := by
  apply BitVec.eq_of_getLsbD_eq
  intro i hi
  simp only [cat8, lo8, BitVec.getLsbD_extractLsb', BitVec.getLsbD_append, hi, Nat.zero_add, decide_true, Bool.true_and,
    if_true]

@[simp] theorem crcField_length (c : Word) : (crcField c).length = 2 := rfl

@[simp] theorem appendCrc_length (bs : List Byte) : (appendCrc bs).length = bs.length + 2 := by simp [appendCrc]

@[simp] theorem frameBody_append (bs : List Byte) (c : Word) : frameBody (bs ++ crcField c) = bs := by
  simp [frameBody]

@[simp] theorem receivedCrc_append (bs : List Byte) (c : Word) : receivedCrc (bs ++ crcField c) = c := by
  simp [receivedCrc, crcField]

/-- What the checker accepts: at least three bytes, the CRC of all but the last two in the last two. -/
theorem validate_eq_true {f : List Byte} :
    validate f = true ↔ 3 ≤ f.length ∧ receivedCrc f = crc16 (frameBody f) := by
  unfold validate computedCrc Config.crcMinFrame
  by_cases h : f.length < 3
  · simp [h]
  · simp [h, Nat.le_of_not_lt h]

/-- A frame of at least two bytes is its body and its CRC field. -/
theorem frame_parts {f : List Byte} (h : 2 ≤ f.length) : f = frameBody f ++ crcField (receivedCrc f) := by
  have hd : (f.drop (f.length - 2)).length = 2 := by simp; omega
  obtain ⟨lo, hi, hlh⟩ : ∃ lo hi, f.drop (f.length - 2) = [lo, hi] := by
    match f.drop (f.length - 2), hd with
    | [lo, hi], _ => exact ⟨lo, hi, rfl⟩
  conv_lhs => rw [← List.take_append_drop (f.length - 2) f]
  simp [frameBody, receivedCrc, hlh, crcField]

end Sys2Proof.Machine
end

