-- ==== Sys2Proof/Laws/Memory.lean ====
section
/-! SUPPORT. The laws of the buffers: a read after a write, the canonical form, ranges. -/

namespace Sys2Proof.Machine

/-! ## One byte -/

theorem get?_set_same (m : Memory) (a : Nat) (b : Byte) : (m.set a b).get? a = some b := by
  induction m with
  | nil => simp [Memory.set, Memory.get?]
  | cons c m ih =>
    obtain ⟨k, v⟩ := c
    by_cases h1 : a < k
    · simp [Memory.set, Memory.get?, h1]
    · by_cases h2 : a = k
      · simp [Memory.set, Memory.get?, h2]
      · simp [Memory.set, Memory.get?, h1, h2, Ne.symm h2, ih]

theorem get?_set_ne (m : Memory) {a c : Nat} (b : Byte) (h : c ≠ a) : (m.set a b).get? c = m.get? c := by
  induction m with
  | nil => simp [Memory.set, Memory.get?, Ne.symm h]
  | cons e m ih =>
    obtain ⟨k, v⟩ := e
    by_cases h1 : a < k
    · simp [Memory.set, Memory.get?, h1, Ne.symm h]
    · by_cases h2 : a = k
      · subst h2; simp [Memory.set, Memory.get?, Ne.symm h]
      · simp only [Memory.set, h1, h2, if_false, Memory.get?, ih]

theorem get?_set (m : Memory) (a c : Nat) (b : Byte) :
    (m.set a b).get? c = if c = a then some b else m.get? c := by
  by_cases h : c = a
  · simp [h, get?_set_same]
  · simp [h, get?_set_ne m b h]

/-! ## The canonical form -/

theorem wfFrom_set {m : Memory} {lo size a : Nat} (b : Byte) (hm : Memory.wfFrom lo size m = true) (hlo : lo ≤ a)
    (ha : a < size) : Memory.wfFrom lo size (m.set a b) = true := by
  induction m generalizing lo with
  | nil => simp [Memory.set, Memory.wfFrom, hlo, ha]
  | cons e m ih =>
    obtain ⟨k, v⟩ := e
    simp only [Memory.wfFrom, Bool.and_eq_true, decide_eq_true_eq] at hm
    obtain ⟨⟨h1, h2⟩, h3⟩ := hm
    by_cases hk : a < k
    · simp [Memory.set, Memory.wfFrom, hk, hlo, ha, h2, h3]
    · by_cases hk2 : a = k
      · subst hk2; simp [Memory.set, Memory.wfFrom, h1, h2, h3]
      · simp only [Memory.set, hk, hk2, if_false, Memory.wfFrom, Bool.and_eq_true, decide_eq_true_eq]
        exact ⟨⟨h1, h2⟩, ih h3 (by omega)⟩

/-- Writing a byte inside the buffer keeps its canonical form. -/
theorem wf_set {m : Memory} {size a : Nat} (b : Byte) (hm : Memory.wf size m = true) (ha : a < size) :
    Memory.wf size (m.set a b) = true := wfFrom_set b hm (Nat.zero_le a) ha

/-- Writing a range inside the buffer keeps its canonical form. -/
theorem wf_setRange {m : Memory} {size a : Nat} {bs : List Byte} (hm : Memory.wf size m = true)
    (ha : a + bs.length ≤ size) : Memory.wf size (m.setRange a bs) = true := by
  induction bs generalizing m a with
  | nil => simpa [Memory.setRange] using hm
  | cons b bs ih =>
    simp only [List.length_cons] at ha
    exact ih (wf_set b hm (by omega)) (by omega)

@[simp] theorem wf_nil (size : Nat) : Memory.wf size [] = true := rfl

theorem wfFrom_get?_eq {m n : Memory} {lo lo' size : Nat} (hm : Memory.wfFrom lo size m = true)
    (hn : Memory.wfFrom lo' size n = true) (h : ∀ a, m.get? a = n.get? a) : m = n := by
  have below : ∀ {m : Memory} {lo a : Nat}, Memory.wfFrom lo size m = true → a < lo → m.get? a = none := by
    intro m
    induction m with
    | nil => intros; rfl
    | cons e m ih =>
      obtain ⟨k, v⟩ := e
      intro lo a hw ha
      simp only [Memory.wfFrom, Bool.and_eq_true, decide_eq_true_eq] at hw
      have hne : k ≠ a := by omega
      simp only [Memory.get?, hne, if_false]
      exact ih hw.2 (by omega)
  induction m generalizing n lo lo' with
  | nil =>
    cases n with
    | nil => rfl
    | cons e n => obtain ⟨k, v⟩ := e; simpa [Memory.get?] using h k
  | cons e m ih =>
    obtain ⟨k, v⟩ := e
    cases n with
    | nil => simpa [Memory.get?] using h k
    | cons e' n =>
      obtain ⟨k', v'⟩ := e'
      simp only [Memory.wfFrom, Bool.and_eq_true, decide_eq_true_eq] at hm hn
      have hk : k = k' := by
        rcases Nat.lt_trichotomy k k' with hlt | heq | hgt
        · have := h k
          have hne : k' ≠ k := by omega
          simp only [Memory.get?, if_true, hne, if_false, below hn.2 (show k < k' + 1 by omega)] at this
          cases this
        · exact heq
        · have := h k'
          have hne : k ≠ k' := by omega
          simp only [Memory.get?, if_true, hne, if_false, below hm.2 (show k' < k + 1 by omega)] at this
          cases this
      subst hk
      have hv : v = v' := by simpa [Memory.get?] using h k
      subst hv
      congr 1
      refine ih hm.2 hn.2 fun a => ?_
      by_cases ha : k = a
      · subst ha; rw [below hm.2 (by omega), below hn.2 (by omega)]
      · simpa [Memory.get?, ha] using h a

/-- Two buffers in canonical form with the same written bytes are the same data. -/
theorem wf_ext {m n : Memory} {size : Nat} (hm : Memory.wf size m = true) (hn : Memory.wf size n = true)
    (h : ∀ a, m.get? a = n.get? a) : m = n := wfFrom_get?_eq hm hn h

/-! ## Ranges -/

theorem get?_setRange (m : Memory) (a c : Nat) (bs : List Byte) :
    (m.setRange a bs).get? c = if a ≤ c ∧ c < a + bs.length then bs[c - a]? else m.get? c := by
  induction bs generalizing m a with
  | nil => simp [Memory.setRange]
  | cons b bs ih =>
    simp only [Memory.setRange, ih, get?_set, List.length_cons]
    by_cases h1 : c = a
    · subst h1; simp
    · by_cases h2 : a + 1 ≤ c ∧ c < a + 1 + bs.length
      · have h3 : a ≤ c ∧ c < a + (bs.length + 1) := by omega
        rw [if_pos h2, if_pos h3]
        obtain ⟨j, hj⟩ : ∃ j, c - a = j + 1 := ⟨c - a - 1, by omega⟩
        rw [hj, List.getElem?_cons_succ]
        congr 1; omega
      · have h3 : ¬ (a ≤ c ∧ c < a + (bs.length + 1)) := by omega
        rw [if_neg h2, if_neg h3, if_neg h1]

@[simp] theorem buffer_setBuffer_same (s : State) (sp : Space) (m : Memory) : (s.setBuffer sp m).buffer sp = m := by
  cases sp <;> rfl

theorem buffer_setBuffer_ne (s : State) {sp sq : Space} (m : Memory) (h : sq ≠ sp) :
    (s.setBuffer sp m).buffer sq = s.buffer sq := by
  cases sp <;> cases sq <;> first | rfl | exact absurd rfl h

@[simp] theorem resets_setBuffer (s : State) (sp : Space) (m : Memory) : (s.setBuffer sp m).resets = s.resets := by
  cases sp <;> rfl

/-- Everything `writeRange` can do. -/
theorem writeRange_some {sp : Space} {off : Nat} {bs : List Byte} {s t : State} (h : writeRange sp off bs s = some t) :
    off + bs.length ≤ spaceSize sp ∧ t = s.setBuffer sp ((s.buffer sp).setRange off bs) := by
  unfold writeRange at h
  split at h
  · exact ⟨‹_›, (Option.some.inj h).symm⟩
  · cases h

theorem writeRange_eq {sp : Space} {off : Nat} {bs : List Byte} (s : State) (h : off + bs.length ≤ spaceSize sp) :
    writeRange sp off bs s = some (s.setBuffer sp ((s.buffer sp).setRange off bs)) := if_pos h

theorem readRange_eq {sp : Space} {off n : Nat} (s : State) (h : off + n ≤ spaceSize sp) :
    readRange sp off n s = some ((List.range n).map fun k => readByte sp (off + k) s) := if_pos h

theorem readRange_length {sp : Space} {off n : Nat} {s : State} {bs : List Byte} (h : readRange sp off n s = some bs) :
    bs.length = n := by
  unfold readRange at h
  split at h
  · rw [← Option.some.inj h]; simp
  · cases h

/-- A read of a byte the range covers. -/
theorem readRange_getElem? {sp : Space} {off n : Nat} {s : State} {bs : List Byte} (h : readRange sp off n s = some bs)
    {k : Nat} (hk : k < n) : bs[k]? = some (readByte sp (off + k) s) := by
  unfold readRange at h
  split at h
  · rw [← Option.some.inj h]; simp [hk]
  · cases h

/-- `readRange` depends only on the bytes it reads. -/
theorem readRange_congr {sp : Space} {off n : Nat} {s t : State}
    (h : ∀ k, k < n → readByte sp (off + k) s = readByte sp (off + k) t) :
    readRange sp off n s = readRange sp off n t := by
  unfold readRange
  split
  · congr 1
    exact List.map_congr_left fun k hk => h k (List.mem_range.1 hk)
  · rfl

/-- A read after a write: the stored bytes inside the range, the old ones outside. -/
theorem readByte_setRange (s : State) (sp : Space) (off i : Nat) (bs : List Byte) :
    readByte sp i (s.setBuffer sp ((s.buffer sp).setRange off bs)) =
      if off ≤ i ∧ i < off + bs.length then bs.getD (i - off) 0 else readByte sp i s := by
  simp only [readByte, buffer_setBuffer_same, get?_setRange, resets_setBuffer]
  by_cases h : off ≤ i ∧ i < off + bs.length
  · have hi : i - off < bs.length := by omega
    simp [if_pos h, List.getElem?_eq_getElem hi, List.getD]
  · rw [if_neg h, if_neg h]

/-- A write to one buffer leaves every byte of the others. -/
theorem readByte_setBuffer_ne (s : State) {sp sq : Space} (m : Memory) (i : Nat) (h : sq ≠ sp) :
    readByte sq i (s.setBuffer sp m) = readByte sq i s := by
  simp only [readByte, buffer_setBuffer_ne s m h, resets_setBuffer]

/-- Reading back what was just written. -/
theorem readRange_writeRange {sp : Space} {bs : List Byte} (s : State) (h : bs.length ≤ spaceSize sp) :
    readRange sp 0 bs.length (s.setBuffer sp ((s.buffer sp).setRange 0 bs)) = some bs := by
  rw [readRange_eq _ (by omega)]
  congr 1
  apply List.ext_getElem?
  intro k
  by_cases hk : k < bs.length
  · simp [hk, readByte_setRange, List.getD]
  · simp [hk]

/-! ## withRange and withStore -/

theorem withRange_eq {sp : Space} {off n : Nat} {s : State} {bs : List Byte} (h : readRange sp off n s = some bs)
    (k : List Byte → Host.Outcome State Fault Refusal) : withRange sp off n s k = k bs := by
  simp [withRange, h]

theorem withStore_eq {sp : Space} {off : Nat} {bs : List Byte} (s : State) (h : off + bs.length ≤ spaceSize sp)
    (k : State → Host.Outcome State Fault Refusal) :
    withStore sp off bs s k = k (s.setBuffer sp ((s.buffer sp).setRange off bs)) := by
  simp [withStore, writeRange_eq s h]

/-- Everything `withRange` can do on the way to a next state. -/
theorem withRange_next {sp : Space} {off n : Nat} {s t : State} {k : List Byte → Host.Outcome State Fault Refusal}
    (h : withRange sp off n s k = .next t) :
    ∃ bs, readRange sp off n s = some bs ∧ k bs = .next t := by
  unfold withRange at h
  split at h
  · exact ⟨_, ‹_›, h⟩
  · cases h

/-- Everything `withStore` can do on the way to a next state. -/
theorem withStore_next {sp : Space} {off : Nat} {bs : List Byte} {s t : State}
    {k : State → Host.Outcome State Fault Refusal} (h : withStore sp off bs s k = .next t) :
    off + bs.length ≤ spaceSize sp ∧ k (s.setBuffer sp ((s.buffer sp).setRange off bs)) = .next t := by
  unfold withStore at h
  split at h
  · obtain ⟨hb, rfl⟩ := writeRange_some ‹_›; exact ⟨hb, h⟩
  · cases h

end Sys2Proof.Machine
end

