-- ==== Sys2Proof/Laws/State.lean ====
section
/-! SUPPORT. What each named update of State does to each field. -/

namespace Sys2Proof.Machine

/-! ## start -/

@[simp] theorem start_op (s : State) : (start s).op = s.op := rfl
@[simp] theorem start_slave (s : State) : (start s).slave = s.slave := rfl
@[simp] theorem start_maddr (s : State) : (start s).maddr = s.maddr := rfl
@[simp] theorem start_count (s : State) : (start s).count = s.count := rfl
@[simp] theorem start_value (s : State) : (start s).value = s.value := rfl
@[simp] theorem start_timeoutMs (s : State) : (start s).timeoutMs = s.timeoutMs := rfl
@[simp] theorem start_cfg (s : State) : (start s).cfg = s.cfg := rfl
@[simp] theorem start_busy (s : State) : (start s).busy = true := rfl
@[simp] theorem start_done (s : State) : (start s).done = false := rfl
@[simp] theorem start_err (s : State) : (start s).err = none := rfl
@[simp] theorem start_exc (s : State) : (start s).exc = false := rfl
@[simp] theorem start_xport (s : State) : (start s).xport = s.xport := rfl
@[simp] theorem start_tsValid (s : State) : (start s).tsValid = s.tsValid := rfl
@[simp] theorem start_rxn (s : State) : (start s).rxn = 0 := rfl
@[simp] theorem start_resLen (s : State) : (start s).resLen = 0 := rfl
@[simp] theorem start_excCode (s : State) : (start s).excCode = 0 := rfl
@[simp] theorem start_crcOut (s : State) : (start s).crcOut = s.crcOut := rfl
@[simp] theorem start_rxCount (s : State) : (start s).rxCount = s.rxCount := rfl
@[simp] theorem start_txCount (s : State) : (start s).txCount = s.txCount := rfl
@[simp] theorem start_ph (s : State) : (start s).ph = .check := rfl
@[simp] theorem start_reqLen (s : State) : (start s).reqLen = 0 := rfl
@[simp] theorem start_repLen (s : State) : (start s).repLen = 0 := rfl
@[simp] theorem start_ts (s : State) : (start s).ts = s.ts := rfl
@[simp] theorem start_crcAcc (s : State) : (start s).crcAcc = s.crcAcc := rfl
@[simp] theorem start_cfgAct (s : State) : (start s).cfgAct = s.cfgAct := rfl
@[simp] theorem start_t0 (s : State) : (start s).t0 = s.t0 := rfl
@[simp] theorem start_dl (s : State) : (start s).dl = s.dl := rfl
@[simp] theorem start_rxq (s : State) : (start s).rxq = s.rxq := rfl
@[simp] theorem start_txq (s : State) : (start s).txq = s.txq := rfl
@[simp] theorem start_wdata (s : State) : (start s).wdata = s.wdata := rfl
@[simp] theorem start_rdata (s : State) : (start s).rdata = s.rdata := rfl
@[simp] theorem start_req (s : State) : (start s).req = s.req := rfl
@[simp] theorem start_rep (s : State) : (start s).rep = s.rep := rfl
@[simp] theorem start_now (s : State) : (start s).now = s.now := rfl
@[simp] theorem start_draw (s : State) : (start s).draw = s.draw := rfl
@[simp] theorem start_agenda (s : State) : (start s).agenda = s.agenda := rfl
@[simp] theorem start_draws (s : State) : (start s).draws = s.draws := rfl
@[simp] theorem start_moves (s : State) : (start s).moves = s.moves := rfl
@[simp] theorem start_resets (s : State) : (start s).resets = s.resets := rfl
@[simp] theorem start_wire (s : State) : (start s).wire = s.wire := rfl
@[simp] theorem start_hostSaw (s : State) : (start s).hostSaw = s.hostSaw := rfl

/-! ## completeOk -/

@[simp] theorem completeOk_op (s : State) : (completeOk s).op = s.op := rfl
@[simp] theorem completeOk_slave (s : State) : (completeOk s).slave = s.slave := rfl
@[simp] theorem completeOk_maddr (s : State) : (completeOk s).maddr = s.maddr := rfl
@[simp] theorem completeOk_count (s : State) : (completeOk s).count = s.count := rfl
@[simp] theorem completeOk_value (s : State) : (completeOk s).value = s.value := rfl
@[simp] theorem completeOk_timeoutMs (s : State) : (completeOk s).timeoutMs = s.timeoutMs := rfl
@[simp] theorem completeOk_cfg (s : State) : (completeOk s).cfg = s.cfg := rfl
@[simp] theorem completeOk_busy (s : State) : (completeOk s).busy = false := rfl
@[simp] theorem completeOk_done (s : State) : (completeOk s).done = true := rfl
@[simp] theorem completeOk_err (s : State) : (completeOk s).err = none := rfl
@[simp] theorem completeOk_exc (s : State) : (completeOk s).exc = s.exc := rfl
@[simp] theorem completeOk_xport (s : State) : (completeOk s).xport = s.xport := rfl
@[simp] theorem completeOk_tsValid (s : State) : (completeOk s).tsValid = s.tsValid := rfl
@[simp] theorem completeOk_rxn (s : State) : (completeOk s).rxn = s.rxn := rfl
@[simp] theorem completeOk_resLen (s : State) : (completeOk s).resLen = s.resLen := rfl
@[simp] theorem completeOk_excCode (s : State) : (completeOk s).excCode = s.excCode := rfl
@[simp] theorem completeOk_crcOut (s : State) : (completeOk s).crcOut = s.crcOut := rfl
@[simp] theorem completeOk_rxCount (s : State) : (completeOk s).rxCount = s.rxCount := rfl
@[simp] theorem completeOk_txCount (s : State) : (completeOk s).txCount = s.txCount := rfl
@[simp] theorem completeOk_ph (s : State) : (completeOk s).ph = .idle := rfl
@[simp] theorem completeOk_reqLen (s : State) : (completeOk s).reqLen = s.reqLen := rfl
@[simp] theorem completeOk_repLen (s : State) : (completeOk s).repLen = s.repLen := rfl
@[simp] theorem completeOk_ts (s : State) : (completeOk s).ts = s.ts := rfl
@[simp] theorem completeOk_crcAcc (s : State) : (completeOk s).crcAcc = s.crcAcc := rfl
@[simp] theorem completeOk_cfgAct (s : State) : (completeOk s).cfgAct = s.cfgAct := rfl
@[simp] theorem completeOk_t0 (s : State) : (completeOk s).t0 = s.t0 := rfl
@[simp] theorem completeOk_dl (s : State) : (completeOk s).dl = s.dl := rfl
@[simp] theorem completeOk_rxq (s : State) : (completeOk s).rxq = s.rxq := rfl
@[simp] theorem completeOk_txq (s : State) : (completeOk s).txq = s.txq := rfl
@[simp] theorem completeOk_wdata (s : State) : (completeOk s).wdata = s.wdata := rfl
@[simp] theorem completeOk_rdata (s : State) : (completeOk s).rdata = s.rdata := rfl
@[simp] theorem completeOk_req (s : State) : (completeOk s).req = s.req := rfl
@[simp] theorem completeOk_rep (s : State) : (completeOk s).rep = s.rep := rfl
@[simp] theorem completeOk_now (s : State) : (completeOk s).now = s.now := rfl
@[simp] theorem completeOk_draw (s : State) : (completeOk s).draw = s.draw := rfl
@[simp] theorem completeOk_agenda (s : State) : (completeOk s).agenda = s.agenda := rfl
@[simp] theorem completeOk_draws (s : State) : (completeOk s).draws = s.draws := rfl
@[simp] theorem completeOk_moves (s : State) : (completeOk s).moves = s.moves := rfl
@[simp] theorem completeOk_resets (s : State) : (completeOk s).resets = s.resets := rfl
@[simp] theorem completeOk_wire (s : State) : (completeOk s).wire = s.wire := rfl
@[simp] theorem completeOk_hostSaw (s : State) : (completeOk s).hostSaw = s.hostSaw := rfl

/-! ## raise -/

@[simp] theorem raise_op (k : ErrorKind) (s : State) : (raise k s).op = s.op := rfl
@[simp] theorem raise_slave (k : ErrorKind) (s : State) : (raise k s).slave = s.slave := rfl
@[simp] theorem raise_maddr (k : ErrorKind) (s : State) : (raise k s).maddr = s.maddr := rfl
@[simp] theorem raise_count (k : ErrorKind) (s : State) : (raise k s).count = s.count := rfl
@[simp] theorem raise_value (k : ErrorKind) (s : State) : (raise k s).value = s.value := rfl
@[simp] theorem raise_timeoutMs (k : ErrorKind) (s : State) : (raise k s).timeoutMs = s.timeoutMs := rfl
@[simp] theorem raise_cfg (k : ErrorKind) (s : State) : (raise k s).cfg = s.cfg := rfl
@[simp] theorem raise_busy (k : ErrorKind) (s : State) : (raise k s).busy = false := rfl
@[simp] theorem raise_done (k : ErrorKind) (s : State) : (raise k s).done = true := rfl
@[simp] theorem raise_err (k : ErrorKind) (s : State) : (raise k s).err = some k := rfl
@[simp] theorem raise_exc (k : ErrorKind) (s : State) : (raise k s).exc = s.exc := rfl
@[simp] theorem raise_xport (k : ErrorKind) (s : State) : (raise k s).xport = if k.invalidates then .closed else s.xport := rfl
@[simp] theorem raise_tsValid (k : ErrorKind) (s : State) : (raise k s).tsValid = s.tsValid := rfl
@[simp] theorem raise_rxn (k : ErrorKind) (s : State) : (raise k s).rxn = s.rxn := rfl
@[simp] theorem raise_resLen (k : ErrorKind) (s : State) : (raise k s).resLen = s.resLen := rfl
@[simp] theorem raise_excCode (k : ErrorKind) (s : State) : (raise k s).excCode = s.excCode := rfl
@[simp] theorem raise_crcOut (k : ErrorKind) (s : State) : (raise k s).crcOut = s.crcOut := rfl
@[simp] theorem raise_rxCount (k : ErrorKind) (s : State) : (raise k s).rxCount = s.rxCount := rfl
@[simp] theorem raise_txCount (k : ErrorKind) (s : State) : (raise k s).txCount = s.txCount := rfl
@[simp] theorem raise_ph (k : ErrorKind) (s : State) : (raise k s).ph = .idle := rfl
@[simp] theorem raise_reqLen (k : ErrorKind) (s : State) : (raise k s).reqLen = s.reqLen := rfl
@[simp] theorem raise_repLen (k : ErrorKind) (s : State) : (raise k s).repLen = s.repLen := rfl
@[simp] theorem raise_ts (k : ErrorKind) (s : State) : (raise k s).ts = s.ts := rfl
@[simp] theorem raise_crcAcc (k : ErrorKind) (s : State) : (raise k s).crcAcc = s.crcAcc := rfl
@[simp] theorem raise_cfgAct (k : ErrorKind) (s : State) : (raise k s).cfgAct = s.cfgAct := rfl
@[simp] theorem raise_t0 (k : ErrorKind) (s : State) : (raise k s).t0 = s.t0 := rfl
@[simp] theorem raise_dl (k : ErrorKind) (s : State) : (raise k s).dl = s.dl := rfl
@[simp] theorem raise_rxq (k : ErrorKind) (s : State) : (raise k s).rxq = if k.invalidates then [] else s.rxq := rfl
@[simp] theorem raise_txq (k : ErrorKind) (s : State) : (raise k s).txq = if k.invalidates then [] else s.txq := rfl
@[simp] theorem raise_wdata (k : ErrorKind) (s : State) : (raise k s).wdata = s.wdata := rfl
@[simp] theorem raise_rdata (k : ErrorKind) (s : State) : (raise k s).rdata = s.rdata := rfl
@[simp] theorem raise_req (k : ErrorKind) (s : State) : (raise k s).req = s.req := rfl
@[simp] theorem raise_rep (k : ErrorKind) (s : State) : (raise k s).rep = s.rep := rfl
@[simp] theorem raise_now (k : ErrorKind) (s : State) : (raise k s).now = s.now := rfl
@[simp] theorem raise_draw (k : ErrorKind) (s : State) : (raise k s).draw = s.draw := rfl
@[simp] theorem raise_agenda (k : ErrorKind) (s : State) : (raise k s).agenda = s.agenda := rfl
@[simp] theorem raise_draws (k : ErrorKind) (s : State) : (raise k s).draws = s.draws := rfl
@[simp] theorem raise_moves (k : ErrorKind) (s : State) : (raise k s).moves = s.moves := rfl
@[simp] theorem raise_resets (k : ErrorKind) (s : State) : (raise k s).resets = s.resets := rfl
@[simp] theorem raise_wire (k : ErrorKind) (s : State) : (raise k s).wire = s.wire := rfl
@[simp] theorem raise_hostSaw (k : ErrorKind) (s : State) : (raise k s).hostSaw = s.hostSaw := rfl

/-! ## stamp -/

@[simp] theorem stamp_op (s : State) : (stamp s).op = s.op := rfl
@[simp] theorem stamp_slave (s : State) : (stamp s).slave = s.slave := rfl
@[simp] theorem stamp_maddr (s : State) : (stamp s).maddr = s.maddr := rfl
@[simp] theorem stamp_count (s : State) : (stamp s).count = s.count := rfl
@[simp] theorem stamp_value (s : State) : (stamp s).value = s.value := rfl
@[simp] theorem stamp_timeoutMs (s : State) : (stamp s).timeoutMs = s.timeoutMs := rfl
@[simp] theorem stamp_cfg (s : State) : (stamp s).cfg = s.cfg := rfl
@[simp] theorem stamp_busy (s : State) : (stamp s).busy = s.busy := rfl
@[simp] theorem stamp_done (s : State) : (stamp s).done = s.done := rfl
@[simp] theorem stamp_err (s : State) : (stamp s).err = s.err := rfl
@[simp] theorem stamp_exc (s : State) : (stamp s).exc = s.exc := rfl
@[simp] theorem stamp_xport (s : State) : (stamp s).xport = s.xport := rfl
@[simp] theorem stamp_tsValid (s : State) : (stamp s).tsValid = true := rfl
@[simp] theorem stamp_rxn (s : State) : (stamp s).rxn = s.rxn := rfl
@[simp] theorem stamp_resLen (s : State) : (stamp s).resLen = s.resLen := rfl
@[simp] theorem stamp_excCode (s : State) : (stamp s).excCode = s.excCode := rfl
@[simp] theorem stamp_crcOut (s : State) : (stamp s).crcOut = s.crcOut := rfl
@[simp] theorem stamp_rxCount (s : State) : (stamp s).rxCount = s.rxCount := rfl
@[simp] theorem stamp_txCount (s : State) : (stamp s).txCount = s.txCount := rfl
@[simp] theorem stamp_ph (s : State) : (stamp s).ph = s.ph := rfl
@[simp] theorem stamp_reqLen (s : State) : (stamp s).reqLen = s.reqLen := rfl
@[simp] theorem stamp_repLen (s : State) : (stamp s).repLen = s.repLen := rfl
@[simp] theorem stamp_ts (s : State) : (stamp s).ts = s.now := rfl
@[simp] theorem stamp_crcAcc (s : State) : (stamp s).crcAcc = s.crcAcc := rfl
@[simp] theorem stamp_cfgAct (s : State) : (stamp s).cfgAct = s.cfgAct := rfl
@[simp] theorem stamp_t0 (s : State) : (stamp s).t0 = s.t0 := rfl
@[simp] theorem stamp_dl (s : State) : (stamp s).dl = s.dl := rfl
@[simp] theorem stamp_rxq (s : State) : (stamp s).rxq = s.rxq := rfl
@[simp] theorem stamp_txq (s : State) : (stamp s).txq = s.txq := rfl
@[simp] theorem stamp_wdata (s : State) : (stamp s).wdata = s.wdata := rfl
@[simp] theorem stamp_rdata (s : State) : (stamp s).rdata = s.rdata := rfl
@[simp] theorem stamp_req (s : State) : (stamp s).req = s.req := rfl
@[simp] theorem stamp_rep (s : State) : (stamp s).rep = s.rep := rfl
@[simp] theorem stamp_now (s : State) : (stamp s).now = s.now := rfl
@[simp] theorem stamp_draw (s : State) : (stamp s).draw = s.draw := rfl
@[simp] theorem stamp_agenda (s : State) : (stamp s).agenda = s.agenda := rfl
@[simp] theorem stamp_draws (s : State) : (stamp s).draws = s.draws := rfl
@[simp] theorem stamp_moves (s : State) : (stamp s).moves = s.moves := rfl
@[simp] theorem stamp_resets (s : State) : (stamp s).resets = s.resets := rfl
@[simp] theorem stamp_wire (s : State) : (stamp s).wire = s.wire := rfl
@[simp] theorem stamp_hostSaw (s : State) : (stamp s).hostSaw = s.hostSaw := rfl

/-! ## clearCounters -/

@[simp] theorem clearCounters_op (r : Strobes) (s : State) : (clearCounters r s).op = s.op := rfl
@[simp] theorem clearCounters_slave (r : Strobes) (s : State) : (clearCounters r s).slave = s.slave := rfl
@[simp] theorem clearCounters_maddr (r : Strobes) (s : State) : (clearCounters r s).maddr = s.maddr := rfl
@[simp] theorem clearCounters_count (r : Strobes) (s : State) : (clearCounters r s).count = s.count := rfl
@[simp] theorem clearCounters_value (r : Strobes) (s : State) : (clearCounters r s).value = s.value := rfl
@[simp] theorem clearCounters_timeoutMs (r : Strobes) (s : State) : (clearCounters r s).timeoutMs = s.timeoutMs := rfl
@[simp] theorem clearCounters_cfg (r : Strobes) (s : State) : (clearCounters r s).cfg = s.cfg := rfl
@[simp] theorem clearCounters_busy (r : Strobes) (s : State) : (clearCounters r s).busy = s.busy := rfl
@[simp] theorem clearCounters_done (r : Strobes) (s : State) : (clearCounters r s).done = s.done := rfl
@[simp] theorem clearCounters_err (r : Strobes) (s : State) : (clearCounters r s).err = s.err := rfl
@[simp] theorem clearCounters_exc (r : Strobes) (s : State) : (clearCounters r s).exc = s.exc := rfl
@[simp] theorem clearCounters_xport (r : Strobes) (s : State) : (clearCounters r s).xport = s.xport := rfl
@[simp] theorem clearCounters_tsValid (r : Strobes) (s : State) : (clearCounters r s).tsValid = s.tsValid := rfl
@[simp] theorem clearCounters_rxn (r : Strobes) (s : State) : (clearCounters r s).rxn = s.rxn := rfl
@[simp] theorem clearCounters_resLen (r : Strobes) (s : State) : (clearCounters r s).resLen = s.resLen := rfl
@[simp] theorem clearCounters_excCode (r : Strobes) (s : State) : (clearCounters r s).excCode = s.excCode := rfl
@[simp] theorem clearCounters_crcOut (r : Strobes) (s : State) : (clearCounters r s).crcOut = s.crcOut := rfl
@[simp] theorem clearCounters_rxCount (r : Strobes) (s : State) : (clearCounters r s).rxCount = if r.rx then 0 else s.rxCount := rfl
@[simp] theorem clearCounters_txCount (r : Strobes) (s : State) : (clearCounters r s).txCount = if r.tx then 0 else s.txCount := rfl
@[simp] theorem clearCounters_ph (r : Strobes) (s : State) : (clearCounters r s).ph = s.ph := rfl
@[simp] theorem clearCounters_reqLen (r : Strobes) (s : State) : (clearCounters r s).reqLen = s.reqLen := rfl
@[simp] theorem clearCounters_repLen (r : Strobes) (s : State) : (clearCounters r s).repLen = s.repLen := rfl
@[simp] theorem clearCounters_ts (r : Strobes) (s : State) : (clearCounters r s).ts = s.ts := rfl
@[simp] theorem clearCounters_crcAcc (r : Strobes) (s : State) : (clearCounters r s).crcAcc = s.crcAcc := rfl
@[simp] theorem clearCounters_cfgAct (r : Strobes) (s : State) : (clearCounters r s).cfgAct = s.cfgAct := rfl
@[simp] theorem clearCounters_t0 (r : Strobes) (s : State) : (clearCounters r s).t0 = s.t0 := rfl
@[simp] theorem clearCounters_dl (r : Strobes) (s : State) : (clearCounters r s).dl = s.dl := rfl
@[simp] theorem clearCounters_rxq (r : Strobes) (s : State) : (clearCounters r s).rxq = s.rxq := rfl
@[simp] theorem clearCounters_txq (r : Strobes) (s : State) : (clearCounters r s).txq = s.txq := rfl
@[simp] theorem clearCounters_wdata (r : Strobes) (s : State) : (clearCounters r s).wdata = s.wdata := rfl
@[simp] theorem clearCounters_rdata (r : Strobes) (s : State) : (clearCounters r s).rdata = s.rdata := rfl
@[simp] theorem clearCounters_req (r : Strobes) (s : State) : (clearCounters r s).req = s.req := rfl
@[simp] theorem clearCounters_rep (r : Strobes) (s : State) : (clearCounters r s).rep = s.rep := rfl
@[simp] theorem clearCounters_now (r : Strobes) (s : State) : (clearCounters r s).now = s.now := rfl
@[simp] theorem clearCounters_draw (r : Strobes) (s : State) : (clearCounters r s).draw = s.draw := rfl
@[simp] theorem clearCounters_agenda (r : Strobes) (s : State) : (clearCounters r s).agenda = s.agenda := rfl
@[simp] theorem clearCounters_draws (r : Strobes) (s : State) : (clearCounters r s).draws = s.draws := rfl
@[simp] theorem clearCounters_moves (r : Strobes) (s : State) : (clearCounters r s).moves = s.moves := rfl
@[simp] theorem clearCounters_resets (r : Strobes) (s : State) : (clearCounters r s).resets = s.resets := rfl
@[simp] theorem clearCounters_wire (r : Strobes) (s : State) : (clearCounters r s).wire = s.wire := rfl
@[simp] theorem clearCounters_hostSaw (r : Strobes) (s : State) : (clearCounters r s).hostSaw = s.hostSaw := rfl

/-! ## openPort -/

@[simp] theorem openPort_op (s : State) : (openPort s).op = s.op := rfl
@[simp] theorem openPort_slave (s : State) : (openPort s).slave = s.slave := rfl
@[simp] theorem openPort_maddr (s : State) : (openPort s).maddr = s.maddr := rfl
@[simp] theorem openPort_count (s : State) : (openPort s).count = s.count := rfl
@[simp] theorem openPort_value (s : State) : (openPort s).value = s.value := rfl
@[simp] theorem openPort_timeoutMs (s : State) : (openPort s).timeoutMs = s.timeoutMs := rfl
@[simp] theorem openPort_cfg (s : State) : (openPort s).cfg = s.cfg := rfl
@[simp] theorem openPort_busy (s : State) : (openPort s).busy = s.busy := rfl
@[simp] theorem openPort_done (s : State) : (openPort s).done = s.done := rfl
@[simp] theorem openPort_err (s : State) : (openPort s).err = s.err := rfl
@[simp] theorem openPort_exc (s : State) : (openPort s).exc = s.exc := rfl
@[simp] theorem openPort_xport (s : State) : (openPort s).xport = .opened := rfl
@[simp] theorem openPort_tsValid (s : State) : (openPort s).tsValid = s.tsValid := rfl
@[simp] theorem openPort_rxn (s : State) : (openPort s).rxn = s.rxn := rfl
@[simp] theorem openPort_resLen (s : State) : (openPort s).resLen = s.resLen := rfl
@[simp] theorem openPort_excCode (s : State) : (openPort s).excCode = s.excCode := rfl
@[simp] theorem openPort_crcOut (s : State) : (openPort s).crcOut = s.crcOut := rfl
@[simp] theorem openPort_rxCount (s : State) : (openPort s).rxCount = 0 := rfl
@[simp] theorem openPort_txCount (s : State) : (openPort s).txCount = 0 := rfl
@[simp] theorem openPort_ph (s : State) : (openPort s).ph = s.ph := rfl
@[simp] theorem openPort_reqLen (s : State) : (openPort s).reqLen = s.reqLen := rfl
@[simp] theorem openPort_repLen (s : State) : (openPort s).repLen = s.repLen := rfl
@[simp] theorem openPort_ts (s : State) : (openPort s).ts = s.ts := rfl
@[simp] theorem openPort_crcAcc (s : State) : (openPort s).crcAcc = s.crcAcc := rfl
@[simp] theorem openPort_cfgAct (s : State) : (openPort s).cfgAct = s.cfg := rfl
@[simp] theorem openPort_t0 (s : State) : (openPort s).t0 = s.t0 := rfl
@[simp] theorem openPort_dl (s : State) : (openPort s).dl = s.dl := rfl
@[simp] theorem openPort_rxq (s : State) : (openPort s).rxq = [] := rfl
@[simp] theorem openPort_txq (s : State) : (openPort s).txq = [] := rfl
@[simp] theorem openPort_wdata (s : State) : (openPort s).wdata = s.wdata := rfl
@[simp] theorem openPort_rdata (s : State) : (openPort s).rdata = s.rdata := rfl
@[simp] theorem openPort_req (s : State) : (openPort s).req = s.req := rfl
@[simp] theorem openPort_rep (s : State) : (openPort s).rep = s.rep := rfl
@[simp] theorem openPort_now (s : State) : (openPort s).now = s.now := rfl
@[simp] theorem openPort_draw (s : State) : (openPort s).draw = s.draw := rfl
@[simp] theorem openPort_agenda (s : State) : (openPort s).agenda = s.agenda := rfl
@[simp] theorem openPort_draws (s : State) : (openPort s).draws = s.draws := rfl
@[simp] theorem openPort_moves (s : State) : (openPort s).moves = s.moves := rfl
@[simp] theorem openPort_resets (s : State) : (openPort s).resets = s.resets := rfl
@[simp] theorem openPort_wire (s : State) : (openPort s).wire = s.wire := rfl
@[simp] theorem openPort_hostSaw (s : State) : (openPort s).hostSaw = s.hostSaw := rfl

/-! ## flushPort -/

@[simp] theorem flushPort_op (s : State) : (flushPort s).op = s.op := rfl
@[simp] theorem flushPort_slave (s : State) : (flushPort s).slave = s.slave := rfl
@[simp] theorem flushPort_maddr (s : State) : (flushPort s).maddr = s.maddr := rfl
@[simp] theorem flushPort_count (s : State) : (flushPort s).count = s.count := rfl
@[simp] theorem flushPort_value (s : State) : (flushPort s).value = s.value := rfl
@[simp] theorem flushPort_timeoutMs (s : State) : (flushPort s).timeoutMs = s.timeoutMs := rfl
@[simp] theorem flushPort_cfg (s : State) : (flushPort s).cfg = s.cfg := rfl
@[simp] theorem flushPort_busy (s : State) : (flushPort s).busy = s.busy := rfl
@[simp] theorem flushPort_done (s : State) : (flushPort s).done = s.done := rfl
@[simp] theorem flushPort_err (s : State) : (flushPort s).err = s.err := rfl
@[simp] theorem flushPort_exc (s : State) : (flushPort s).exc = s.exc := rfl
@[simp] theorem flushPort_xport (s : State) : (flushPort s).xport = s.xport := rfl
@[simp] theorem flushPort_tsValid (s : State) : (flushPort s).tsValid = s.tsValid := rfl
@[simp] theorem flushPort_rxn (s : State) : (flushPort s).rxn = s.rxn := rfl
@[simp] theorem flushPort_resLen (s : State) : (flushPort s).resLen = s.resLen := rfl
@[simp] theorem flushPort_excCode (s : State) : (flushPort s).excCode = s.excCode := rfl
@[simp] theorem flushPort_crcOut (s : State) : (flushPort s).crcOut = s.crcOut := rfl
@[simp] theorem flushPort_rxCount (s : State) : (flushPort s).rxCount = s.rxCount := rfl
@[simp] theorem flushPort_txCount (s : State) : (flushPort s).txCount = s.txCount := rfl
@[simp] theorem flushPort_ph (s : State) : (flushPort s).ph = s.ph := rfl
@[simp] theorem flushPort_reqLen (s : State) : (flushPort s).reqLen = s.reqLen := rfl
@[simp] theorem flushPort_repLen (s : State) : (flushPort s).repLen = s.repLen := rfl
@[simp] theorem flushPort_ts (s : State) : (flushPort s).ts = s.ts := rfl
@[simp] theorem flushPort_crcAcc (s : State) : (flushPort s).crcAcc = s.crcAcc := rfl
@[simp] theorem flushPort_cfgAct (s : State) : (flushPort s).cfgAct = s.cfgAct := rfl
@[simp] theorem flushPort_t0 (s : State) : (flushPort s).t0 = s.t0 := rfl
@[simp] theorem flushPort_dl (s : State) : (flushPort s).dl = s.dl := rfl
@[simp] theorem flushPort_rxq (s : State) : (flushPort s).rxq = [] := rfl
@[simp] theorem flushPort_txq (s : State) : (flushPort s).txq = [] := rfl
@[simp] theorem flushPort_wdata (s : State) : (flushPort s).wdata = s.wdata := rfl
@[simp] theorem flushPort_rdata (s : State) : (flushPort s).rdata = s.rdata := rfl
@[simp] theorem flushPort_req (s : State) : (flushPort s).req = s.req := rfl
@[simp] theorem flushPort_rep (s : State) : (flushPort s).rep = s.rep := rfl
@[simp] theorem flushPort_now (s : State) : (flushPort s).now = s.now := rfl
@[simp] theorem flushPort_draw (s : State) : (flushPort s).draw = s.draw := rfl
@[simp] theorem flushPort_agenda (s : State) : (flushPort s).agenda = s.agenda := rfl
@[simp] theorem flushPort_draws (s : State) : (flushPort s).draws = s.draws := rfl
@[simp] theorem flushPort_moves (s : State) : (flushPort s).moves = s.moves := rfl
@[simp] theorem flushPort_resets (s : State) : (flushPort s).resets = s.resets := rfl
@[simp] theorem flushPort_wire (s : State) : (flushPort s).wire = s.wire := rfl
@[simp] theorem flushPort_hostSaw (s : State) : (flushPort s).hostSaw = s.hostSaw := rfl

/-! ## acceptBytes -/

@[simp] theorem acceptBytes_op (bs : List Byte) (s : State) : (acceptBytes bs s).op = s.op := rfl
@[simp] theorem acceptBytes_slave (bs : List Byte) (s : State) : (acceptBytes bs s).slave = s.slave := rfl
@[simp] theorem acceptBytes_maddr (bs : List Byte) (s : State) : (acceptBytes bs s).maddr = s.maddr := rfl
@[simp] theorem acceptBytes_count (bs : List Byte) (s : State) : (acceptBytes bs s).count = s.count := rfl
@[simp] theorem acceptBytes_value (bs : List Byte) (s : State) : (acceptBytes bs s).value = s.value := rfl
@[simp] theorem acceptBytes_timeoutMs (bs : List Byte) (s : State) : (acceptBytes bs s).timeoutMs = s.timeoutMs := rfl
@[simp] theorem acceptBytes_cfg (bs : List Byte) (s : State) : (acceptBytes bs s).cfg = s.cfg := rfl
@[simp] theorem acceptBytes_busy (bs : List Byte) (s : State) : (acceptBytes bs s).busy = s.busy := rfl
@[simp] theorem acceptBytes_done (bs : List Byte) (s : State) : (acceptBytes bs s).done = s.done := rfl
@[simp] theorem acceptBytes_err (bs : List Byte) (s : State) : (acceptBytes bs s).err = s.err := rfl
@[simp] theorem acceptBytes_exc (bs : List Byte) (s : State) : (acceptBytes bs s).exc = s.exc := rfl
@[simp] theorem acceptBytes_xport (bs : List Byte) (s : State) : (acceptBytes bs s).xport = s.xport := rfl
@[simp] theorem acceptBytes_tsValid (bs : List Byte) (s : State) : (acceptBytes bs s).tsValid = s.tsValid := rfl
@[simp] theorem acceptBytes_rxn (bs : List Byte) (s : State) : (acceptBytes bs s).rxn = s.rxn := rfl
@[simp] theorem acceptBytes_resLen (bs : List Byte) (s : State) : (acceptBytes bs s).resLen = s.resLen := rfl
@[simp] theorem acceptBytes_excCode (bs : List Byte) (s : State) : (acceptBytes bs s).excCode = s.excCode := rfl
@[simp] theorem acceptBytes_crcOut (bs : List Byte) (s : State) : (acceptBytes bs s).crcOut = s.crcOut := rfl
@[simp] theorem acceptBytes_rxCount (bs : List Byte) (s : State) : (acceptBytes bs s).rxCount = s.rxCount := rfl
@[simp] theorem acceptBytes_txCount (bs : List Byte) (s : State) : (acceptBytes bs s).txCount = s.txCount + BitVec.ofNat 64 bs.length := rfl
@[simp] theorem acceptBytes_ph (bs : List Byte) (s : State) : (acceptBytes bs s).ph = s.ph := rfl
@[simp] theorem acceptBytes_reqLen (bs : List Byte) (s : State) : (acceptBytes bs s).reqLen = s.reqLen := rfl
@[simp] theorem acceptBytes_repLen (bs : List Byte) (s : State) : (acceptBytes bs s).repLen = s.repLen := rfl
@[simp] theorem acceptBytes_ts (bs : List Byte) (s : State) : (acceptBytes bs s).ts = s.ts := rfl
@[simp] theorem acceptBytes_crcAcc (bs : List Byte) (s : State) : (acceptBytes bs s).crcAcc = s.crcAcc := rfl
@[simp] theorem acceptBytes_cfgAct (bs : List Byte) (s : State) : (acceptBytes bs s).cfgAct = s.cfgAct := rfl
@[simp] theorem acceptBytes_t0 (bs : List Byte) (s : State) : (acceptBytes bs s).t0 = s.t0 := rfl
@[simp] theorem acceptBytes_dl (bs : List Byte) (s : State) : (acceptBytes bs s).dl = s.dl := rfl
@[simp] theorem acceptBytes_rxq (bs : List Byte) (s : State) : (acceptBytes bs s).rxq = s.rxq := rfl
@[simp] theorem acceptBytes_txq (bs : List Byte) (s : State) : (acceptBytes bs s).txq = s.txq ++ bs := rfl
@[simp] theorem acceptBytes_wdata (bs : List Byte) (s : State) : (acceptBytes bs s).wdata = s.wdata := rfl
@[simp] theorem acceptBytes_rdata (bs : List Byte) (s : State) : (acceptBytes bs s).rdata = s.rdata := rfl
@[simp] theorem acceptBytes_req (bs : List Byte) (s : State) : (acceptBytes bs s).req = s.req := rfl
@[simp] theorem acceptBytes_rep (bs : List Byte) (s : State) : (acceptBytes bs s).rep = s.rep := rfl
@[simp] theorem acceptBytes_now (bs : List Byte) (s : State) : (acceptBytes bs s).now = s.now := rfl
@[simp] theorem acceptBytes_draw (bs : List Byte) (s : State) : (acceptBytes bs s).draw = s.draw := rfl
@[simp] theorem acceptBytes_agenda (bs : List Byte) (s : State) : (acceptBytes bs s).agenda = s.agenda := rfl
@[simp] theorem acceptBytes_draws (bs : List Byte) (s : State) : (acceptBytes bs s).draws = s.draws := rfl
@[simp] theorem acceptBytes_moves (bs : List Byte) (s : State) : (acceptBytes bs s).moves = s.moves := rfl
@[simp] theorem acceptBytes_resets (bs : List Byte) (s : State) : (acceptBytes bs s).resets = s.resets := rfl
@[simp] theorem acceptBytes_wire (bs : List Byte) (s : State) : (acceptBytes bs s).wire = s.wire := rfl
@[simp] theorem acceptBytes_hostSaw (bs : List Byte) (s : State) : (acceptBytes bs s).hostSaw = s.hostSaw := rfl

/-! ## enterRead -/

@[simp] theorem enterRead_op (d : BitVec 32) (s : State) : (enterRead d s).op = s.op := rfl
@[simp] theorem enterRead_slave (d : BitVec 32) (s : State) : (enterRead d s).slave = s.slave := rfl
@[simp] theorem enterRead_maddr (d : BitVec 32) (s : State) : (enterRead d s).maddr = s.maddr := rfl
@[simp] theorem enterRead_count (d : BitVec 32) (s : State) : (enterRead d s).count = s.count := rfl
@[simp] theorem enterRead_value (d : BitVec 32) (s : State) : (enterRead d s).value = s.value := rfl
@[simp] theorem enterRead_timeoutMs (d : BitVec 32) (s : State) : (enterRead d s).timeoutMs = s.timeoutMs := rfl
@[simp] theorem enterRead_cfg (d : BitVec 32) (s : State) : (enterRead d s).cfg = s.cfg := rfl
@[simp] theorem enterRead_busy (d : BitVec 32) (s : State) : (enterRead d s).busy = s.busy := rfl
@[simp] theorem enterRead_done (d : BitVec 32) (s : State) : (enterRead d s).done = s.done := rfl
@[simp] theorem enterRead_err (d : BitVec 32) (s : State) : (enterRead d s).err = s.err := rfl
@[simp] theorem enterRead_exc (d : BitVec 32) (s : State) : (enterRead d s).exc = s.exc := rfl
@[simp] theorem enterRead_xport (d : BitVec 32) (s : State) : (enterRead d s).xport = s.xport := rfl
@[simp] theorem enterRead_tsValid (d : BitVec 32) (s : State) : (enterRead d s).tsValid = s.tsValid := rfl
@[simp] theorem enterRead_rxn (d : BitVec 32) (s : State) : (enterRead d s).rxn = s.rxn := rfl
@[simp] theorem enterRead_resLen (d : BitVec 32) (s : State) : (enterRead d s).resLen = s.resLen := rfl
@[simp] theorem enterRead_excCode (d : BitVec 32) (s : State) : (enterRead d s).excCode = s.excCode := rfl
@[simp] theorem enterRead_crcOut (d : BitVec 32) (s : State) : (enterRead d s).crcOut = s.crcOut := rfl
@[simp] theorem enterRead_rxCount (d : BitVec 32) (s : State) : (enterRead d s).rxCount = s.rxCount := rfl
@[simp] theorem enterRead_txCount (d : BitVec 32) (s : State) : (enterRead d s).txCount = s.txCount := rfl
@[simp] theorem enterRead_ph (d : BitVec 32) (s : State) : (enterRead d s).ph = .read := rfl
@[simp] theorem enterRead_reqLen (d : BitVec 32) (s : State) : (enterRead d s).reqLen = s.reqLen := rfl
@[simp] theorem enterRead_repLen (d : BitVec 32) (s : State) : (enterRead d s).repLen = s.repLen := rfl
@[simp] theorem enterRead_ts (d : BitVec 32) (s : State) : (enterRead d s).ts = s.ts := rfl
@[simp] theorem enterRead_crcAcc (d : BitVec 32) (s : State) : (enterRead d s).crcAcc = s.crcAcc := rfl
@[simp] theorem enterRead_cfgAct (d : BitVec 32) (s : State) : (enterRead d s).cfgAct = s.cfgAct := rfl
@[simp] theorem enterRead_t0 (d : BitVec 32) (s : State) : (enterRead d s).t0 = s.now := rfl
@[simp] theorem enterRead_dl (d : BitVec 32) (s : State) : (enterRead d s).dl = d.toNat * 1000 := rfl
@[simp] theorem enterRead_rxq (d : BitVec 32) (s : State) : (enterRead d s).rxq = s.rxq := rfl
@[simp] theorem enterRead_txq (d : BitVec 32) (s : State) : (enterRead d s).txq = s.txq := rfl
@[simp] theorem enterRead_wdata (d : BitVec 32) (s : State) : (enterRead d s).wdata = s.wdata := rfl
@[simp] theorem enterRead_rdata (d : BitVec 32) (s : State) : (enterRead d s).rdata = s.rdata := rfl
@[simp] theorem enterRead_req (d : BitVec 32) (s : State) : (enterRead d s).req = s.req := rfl
@[simp] theorem enterRead_rep (d : BitVec 32) (s : State) : (enterRead d s).rep = s.rep := rfl
@[simp] theorem enterRead_now (d : BitVec 32) (s : State) : (enterRead d s).now = s.now := rfl
@[simp] theorem enterRead_draw (d : BitVec 32) (s : State) : (enterRead d s).draw = s.draw := rfl
@[simp] theorem enterRead_agenda (d : BitVec 32) (s : State) : (enterRead d s).agenda = s.agenda := rfl
@[simp] theorem enterRead_draws (d : BitVec 32) (s : State) : (enterRead d s).draws = s.draws := rfl
@[simp] theorem enterRead_moves (d : BitVec 32) (s : State) : (enterRead d s).moves = s.moves := rfl
@[simp] theorem enterRead_resets (d : BitVec 32) (s : State) : (enterRead d s).resets = s.resets := rfl
@[simp] theorem enterRead_wire (d : BitVec 32) (s : State) : (enterRead d s).wire = s.wire := rfl
@[simp] theorem enterRead_hostSaw (d : BitVec 32) (s : State) : (enterRead d s).hostSaw = s.hostSaw := rfl

/-! ## hostSees -/

@[simp] theorem hostSees_op (v : BitVec 64) (s : State) : (hostSees v s).op = s.op := rfl
@[simp] theorem hostSees_slave (v : BitVec 64) (s : State) : (hostSees v s).slave = s.slave := rfl
@[simp] theorem hostSees_maddr (v : BitVec 64) (s : State) : (hostSees v s).maddr = s.maddr := rfl
@[simp] theorem hostSees_count (v : BitVec 64) (s : State) : (hostSees v s).count = s.count := rfl
@[simp] theorem hostSees_value (v : BitVec 64) (s : State) : (hostSees v s).value = s.value := rfl
@[simp] theorem hostSees_timeoutMs (v : BitVec 64) (s : State) : (hostSees v s).timeoutMs = s.timeoutMs := rfl
@[simp] theorem hostSees_cfg (v : BitVec 64) (s : State) : (hostSees v s).cfg = s.cfg := rfl
@[simp] theorem hostSees_busy (v : BitVec 64) (s : State) : (hostSees v s).busy = s.busy := rfl
@[simp] theorem hostSees_done (v : BitVec 64) (s : State) : (hostSees v s).done = s.done := rfl
@[simp] theorem hostSees_err (v : BitVec 64) (s : State) : (hostSees v s).err = s.err := rfl
@[simp] theorem hostSees_exc (v : BitVec 64) (s : State) : (hostSees v s).exc = s.exc := rfl
@[simp] theorem hostSees_xport (v : BitVec 64) (s : State) : (hostSees v s).xport = s.xport := rfl
@[simp] theorem hostSees_tsValid (v : BitVec 64) (s : State) : (hostSees v s).tsValid = s.tsValid := rfl
@[simp] theorem hostSees_rxn (v : BitVec 64) (s : State) : (hostSees v s).rxn = s.rxn := rfl
@[simp] theorem hostSees_resLen (v : BitVec 64) (s : State) : (hostSees v s).resLen = s.resLen := rfl
@[simp] theorem hostSees_excCode (v : BitVec 64) (s : State) : (hostSees v s).excCode = s.excCode := rfl
@[simp] theorem hostSees_crcOut (v : BitVec 64) (s : State) : (hostSees v s).crcOut = s.crcOut := rfl
@[simp] theorem hostSees_rxCount (v : BitVec 64) (s : State) : (hostSees v s).rxCount = s.rxCount := rfl
@[simp] theorem hostSees_txCount (v : BitVec 64) (s : State) : (hostSees v s).txCount = s.txCount := rfl
@[simp] theorem hostSees_ph (v : BitVec 64) (s : State) : (hostSees v s).ph = s.ph := rfl
@[simp] theorem hostSees_reqLen (v : BitVec 64) (s : State) : (hostSees v s).reqLen = s.reqLen := rfl
@[simp] theorem hostSees_repLen (v : BitVec 64) (s : State) : (hostSees v s).repLen = s.repLen := rfl
@[simp] theorem hostSees_ts (v : BitVec 64) (s : State) : (hostSees v s).ts = s.ts := rfl
@[simp] theorem hostSees_crcAcc (v : BitVec 64) (s : State) : (hostSees v s).crcAcc = s.crcAcc := rfl
@[simp] theorem hostSees_cfgAct (v : BitVec 64) (s : State) : (hostSees v s).cfgAct = s.cfgAct := rfl
@[simp] theorem hostSees_t0 (v : BitVec 64) (s : State) : (hostSees v s).t0 = s.t0 := rfl
@[simp] theorem hostSees_dl (v : BitVec 64) (s : State) : (hostSees v s).dl = s.dl := rfl
@[simp] theorem hostSees_rxq (v : BitVec 64) (s : State) : (hostSees v s).rxq = s.rxq := rfl
@[simp] theorem hostSees_txq (v : BitVec 64) (s : State) : (hostSees v s).txq = s.txq := rfl
@[simp] theorem hostSees_wdata (v : BitVec 64) (s : State) : (hostSees v s).wdata = s.wdata := rfl
@[simp] theorem hostSees_rdata (v : BitVec 64) (s : State) : (hostSees v s).rdata = s.rdata := rfl
@[simp] theorem hostSees_req (v : BitVec 64) (s : State) : (hostSees v s).req = s.req := rfl
@[simp] theorem hostSees_rep (v : BitVec 64) (s : State) : (hostSees v s).rep = s.rep := rfl
@[simp] theorem hostSees_now (v : BitVec 64) (s : State) : (hostSees v s).now = s.now := rfl
@[simp] theorem hostSees_draw (v : BitVec 64) (s : State) : (hostSees v s).draw = s.draw := rfl
@[simp] theorem hostSees_agenda (v : BitVec 64) (s : State) : (hostSees v s).agenda = s.agenda := rfl
@[simp] theorem hostSees_draws (v : BitVec 64) (s : State) : (hostSees v s).draws = s.draws := rfl
@[simp] theorem hostSees_moves (v : BitVec 64) (s : State) : (hostSees v s).moves = s.moves := rfl
@[simp] theorem hostSees_resets (v : BitVec 64) (s : State) : (hostSees v s).resets = s.resets := rfl
@[simp] theorem hostSees_wire (v : BitVec 64) (s : State) : (hostSees v s).wire = s.wire := rfl
@[simp] theorem hostSees_hostSaw (v : BitVec 64) (s : State) : (hostSees v s).hostSaw = v := rfl

/-! ## afterEvent -/

@[simp] theorem afterEvent_op (s : State) : (afterEvent s).op = s.op := rfl
@[simp] theorem afterEvent_slave (s : State) : (afterEvent s).slave = s.slave := rfl
@[simp] theorem afterEvent_maddr (s : State) : (afterEvent s).maddr = s.maddr := rfl
@[simp] theorem afterEvent_count (s : State) : (afterEvent s).count = s.count := rfl
@[simp] theorem afterEvent_value (s : State) : (afterEvent s).value = s.value := rfl
@[simp] theorem afterEvent_timeoutMs (s : State) : (afterEvent s).timeoutMs = s.timeoutMs := rfl
@[simp] theorem afterEvent_cfg (s : State) : (afterEvent s).cfg = s.cfg := rfl
@[simp] theorem afterEvent_busy (s : State) : (afterEvent s).busy = s.busy := rfl
@[simp] theorem afterEvent_done (s : State) : (afterEvent s).done = s.done := rfl
@[simp] theorem afterEvent_err (s : State) : (afterEvent s).err = s.err := rfl
@[simp] theorem afterEvent_exc (s : State) : (afterEvent s).exc = s.exc := rfl
@[simp] theorem afterEvent_xport (s : State) : (afterEvent s).xport = s.xport := rfl
@[simp] theorem afterEvent_tsValid (s : State) : (afterEvent s).tsValid = s.tsValid := rfl
@[simp] theorem afterEvent_rxn (s : State) : (afterEvent s).rxn = s.rxn := rfl
@[simp] theorem afterEvent_resLen (s : State) : (afterEvent s).resLen = s.resLen := rfl
@[simp] theorem afterEvent_excCode (s : State) : (afterEvent s).excCode = s.excCode := rfl
@[simp] theorem afterEvent_crcOut (s : State) : (afterEvent s).crcOut = s.crcOut := rfl
@[simp] theorem afterEvent_rxCount (s : State) : (afterEvent s).rxCount = s.rxCount := rfl
@[simp] theorem afterEvent_txCount (s : State) : (afterEvent s).txCount = s.txCount := rfl
@[simp] theorem afterEvent_ph (s : State) : (afterEvent s).ph = s.ph := rfl
@[simp] theorem afterEvent_reqLen (s : State) : (afterEvent s).reqLen = s.reqLen := rfl
@[simp] theorem afterEvent_repLen (s : State) : (afterEvent s).repLen = s.repLen := rfl
@[simp] theorem afterEvent_ts (s : State) : (afterEvent s).ts = s.ts := rfl
@[simp] theorem afterEvent_crcAcc (s : State) : (afterEvent s).crcAcc = s.crcAcc := rfl
@[simp] theorem afterEvent_cfgAct (s : State) : (afterEvent s).cfgAct = s.cfgAct := rfl
@[simp] theorem afterEvent_t0 (s : State) : (afterEvent s).t0 = s.t0 := rfl
@[simp] theorem afterEvent_dl (s : State) : (afterEvent s).dl = s.dl := rfl
@[simp] theorem afterEvent_rxq (s : State) : (afterEvent s).rxq = s.rxq := rfl
@[simp] theorem afterEvent_txq (s : State) : (afterEvent s).txq = s.txq := rfl
@[simp] theorem afterEvent_wdata (s : State) : (afterEvent s).wdata = s.wdata := rfl
@[simp] theorem afterEvent_rdata (s : State) : (afterEvent s).rdata = s.rdata := rfl
@[simp] theorem afterEvent_req (s : State) : (afterEvent s).req = s.req := rfl
@[simp] theorem afterEvent_rep (s : State) : (afterEvent s).rep = s.rep := rfl
@[simp] theorem afterEvent_now (s : State) : (afterEvent s).now = s.now := rfl
@[simp] theorem afterEvent_draw (s : State) : (afterEvent s).draw = s.draw := rfl
@[simp] theorem afterEvent_agenda (s : State) : (afterEvent s).agenda = s.agenda.tail := rfl
@[simp] theorem afterEvent_draws (s : State) : (afterEvent s).draws = if s.agenda.isEmpty then s.draws + 1 else s.draws := rfl
@[simp] theorem afterEvent_moves (s : State) : (afterEvent s).moves = if isRead (pendingEvent s) then s.moves else s.moves + 1 := rfl
@[simp] theorem afterEvent_resets (s : State) : (afterEvent s).resets = s.resets := rfl
@[simp] theorem afterEvent_wire (s : State) : (afterEvent s).wire = s.wire := rfl
@[simp] theorem afterEvent_hostSaw (s : State) : (afterEvent s).hostSaw = s.hostSaw := rfl

/-! ## setBuffer -/

@[simp] theorem setBuffer_op (s : State) (sp : Space) (m : Memory) : (s.setBuffer sp m).op = s.op := by
  cases sp <;> rfl
@[simp] theorem setBuffer_slave (s : State) (sp : Space) (m : Memory) : (s.setBuffer sp m).slave = s.slave := by
  cases sp <;> rfl
@[simp] theorem setBuffer_maddr (s : State) (sp : Space) (m : Memory) : (s.setBuffer sp m).maddr = s.maddr := by
  cases sp <;> rfl
@[simp] theorem setBuffer_count (s : State) (sp : Space) (m : Memory) : (s.setBuffer sp m).count = s.count := by
  cases sp <;> rfl
@[simp] theorem setBuffer_value (s : State) (sp : Space) (m : Memory) : (s.setBuffer sp m).value = s.value := by
  cases sp <;> rfl
@[simp] theorem setBuffer_timeoutMs (s : State) (sp : Space) (m : Memory) : (s.setBuffer sp m).timeoutMs = s.timeoutMs := by
  cases sp <;> rfl
@[simp] theorem setBuffer_cfg (s : State) (sp : Space) (m : Memory) : (s.setBuffer sp m).cfg = s.cfg := by
  cases sp <;> rfl
@[simp] theorem setBuffer_busy (s : State) (sp : Space) (m : Memory) : (s.setBuffer sp m).busy = s.busy := by
  cases sp <;> rfl
@[simp] theorem setBuffer_done (s : State) (sp : Space) (m : Memory) : (s.setBuffer sp m).done = s.done := by
  cases sp <;> rfl
@[simp] theorem setBuffer_err (s : State) (sp : Space) (m : Memory) : (s.setBuffer sp m).err = s.err := by
  cases sp <;> rfl
@[simp] theorem setBuffer_exc (s : State) (sp : Space) (m : Memory) : (s.setBuffer sp m).exc = s.exc := by
  cases sp <;> rfl
@[simp] theorem setBuffer_xport (s : State) (sp : Space) (m : Memory) : (s.setBuffer sp m).xport = s.xport := by
  cases sp <;> rfl
@[simp] theorem setBuffer_tsValid (s : State) (sp : Space) (m : Memory) : (s.setBuffer sp m).tsValid = s.tsValid := by
  cases sp <;> rfl
@[simp] theorem setBuffer_rxn (s : State) (sp : Space) (m : Memory) : (s.setBuffer sp m).rxn = s.rxn := by
  cases sp <;> rfl
@[simp] theorem setBuffer_resLen (s : State) (sp : Space) (m : Memory) : (s.setBuffer sp m).resLen = s.resLen := by
  cases sp <;> rfl
@[simp] theorem setBuffer_excCode (s : State) (sp : Space) (m : Memory) : (s.setBuffer sp m).excCode = s.excCode := by
  cases sp <;> rfl
@[simp] theorem setBuffer_crcOut (s : State) (sp : Space) (m : Memory) : (s.setBuffer sp m).crcOut = s.crcOut := by
  cases sp <;> rfl
@[simp] theorem setBuffer_rxCount (s : State) (sp : Space) (m : Memory) : (s.setBuffer sp m).rxCount = s.rxCount := by
  cases sp <;> rfl
@[simp] theorem setBuffer_txCount (s : State) (sp : Space) (m : Memory) : (s.setBuffer sp m).txCount = s.txCount := by
  cases sp <;> rfl
@[simp] theorem setBuffer_ph (s : State) (sp : Space) (m : Memory) : (s.setBuffer sp m).ph = s.ph := by
  cases sp <;> rfl
@[simp] theorem setBuffer_reqLen (s : State) (sp : Space) (m : Memory) : (s.setBuffer sp m).reqLen = s.reqLen := by
  cases sp <;> rfl
@[simp] theorem setBuffer_repLen (s : State) (sp : Space) (m : Memory) : (s.setBuffer sp m).repLen = s.repLen := by
  cases sp <;> rfl
@[simp] theorem setBuffer_ts (s : State) (sp : Space) (m : Memory) : (s.setBuffer sp m).ts = s.ts := by
  cases sp <;> rfl
@[simp] theorem setBuffer_crcAcc (s : State) (sp : Space) (m : Memory) : (s.setBuffer sp m).crcAcc = s.crcAcc := by
  cases sp <;> rfl
@[simp] theorem setBuffer_cfgAct (s : State) (sp : Space) (m : Memory) : (s.setBuffer sp m).cfgAct = s.cfgAct := by
  cases sp <;> rfl
@[simp] theorem setBuffer_t0 (s : State) (sp : Space) (m : Memory) : (s.setBuffer sp m).t0 = s.t0 := by
  cases sp <;> rfl
@[simp] theorem setBuffer_dl (s : State) (sp : Space) (m : Memory) : (s.setBuffer sp m).dl = s.dl := by
  cases sp <;> rfl
@[simp] theorem setBuffer_rxq (s : State) (sp : Space) (m : Memory) : (s.setBuffer sp m).rxq = s.rxq := by
  cases sp <;> rfl
@[simp] theorem setBuffer_txq (s : State) (sp : Space) (m : Memory) : (s.setBuffer sp m).txq = s.txq := by
  cases sp <;> rfl
@[simp] theorem setBuffer_now (s : State) (sp : Space) (m : Memory) : (s.setBuffer sp m).now = s.now := by
  cases sp <;> rfl
@[simp] theorem setBuffer_draw (s : State) (sp : Space) (m : Memory) : (s.setBuffer sp m).draw = s.draw := by
  cases sp <;> rfl
@[simp] theorem setBuffer_agenda (s : State) (sp : Space) (m : Memory) : (s.setBuffer sp m).agenda = s.agenda := by
  cases sp <;> rfl
@[simp] theorem setBuffer_draws (s : State) (sp : Space) (m : Memory) : (s.setBuffer sp m).draws = s.draws := by
  cases sp <;> rfl
@[simp] theorem setBuffer_moves (s : State) (sp : Space) (m : Memory) : (s.setBuffer sp m).moves = s.moves := by
  cases sp <;> rfl
@[simp] theorem setBuffer_resets (s : State) (sp : Space) (m : Memory) : (s.setBuffer sp m).resets = s.resets := by
  cases sp <;> rfl
@[simp] theorem setBuffer_wire (s : State) (sp : Space) (m : Memory) : (s.setBuffer sp m).wire = s.wire := by
  cases sp <;> rfl
@[simp] theorem setBuffer_hostSaw (s : State) (sp : Space) (m : Memory) : (s.setBuffer sp m).hostSaw = s.hostSaw := by
  cases sp <;> rfl
@[simp] theorem setBuffer_wdata_wdata (s : State) (m : Memory) : (s.setBuffer .wdata m).wdata = m := rfl
@[simp] theorem setBuffer_wdata_rdata (s : State) (m : Memory) : (s.setBuffer .wdata m).rdata = s.rdata := rfl
@[simp] theorem setBuffer_wdata_req (s : State) (m : Memory) : (s.setBuffer .wdata m).req = s.req := rfl
@[simp] theorem setBuffer_wdata_rep (s : State) (m : Memory) : (s.setBuffer .wdata m).rep = s.rep := rfl
@[simp] theorem setBuffer_rdata_wdata (s : State) (m : Memory) : (s.setBuffer .rdata m).wdata = s.wdata := rfl
@[simp] theorem setBuffer_rdata_rdata (s : State) (m : Memory) : (s.setBuffer .rdata m).rdata = m := rfl
@[simp] theorem setBuffer_rdata_req (s : State) (m : Memory) : (s.setBuffer .rdata m).req = s.req := rfl
@[simp] theorem setBuffer_rdata_rep (s : State) (m : Memory) : (s.setBuffer .rdata m).rep = s.rep := rfl
@[simp] theorem setBuffer_req_wdata (s : State) (m : Memory) : (s.setBuffer .req m).wdata = s.wdata := rfl
@[simp] theorem setBuffer_req_rdata (s : State) (m : Memory) : (s.setBuffer .req m).rdata = s.rdata := rfl
@[simp] theorem setBuffer_req_req (s : State) (m : Memory) : (s.setBuffer .req m).req = m := rfl
@[simp] theorem setBuffer_req_rep (s : State) (m : Memory) : (s.setBuffer .req m).rep = s.rep := rfl
@[simp] theorem setBuffer_rep_wdata (s : State) (m : Memory) : (s.setBuffer .rep m).wdata = s.wdata := rfl
@[simp] theorem setBuffer_rep_rdata (s : State) (m : Memory) : (s.setBuffer .rep m).rdata = s.rdata := rfl
@[simp] theorem setBuffer_rep_req (s : State) (m : Memory) : (s.setBuffer .rep m).req = s.req := rfl
@[simp] theorem setBuffer_rep_rep (s : State) (m : Memory) : (s.setBuffer .rep m).rep = m := rfl

end Sys2Proof.Machine
end

