-- ==== Sys2Proof/Laws/Phases.lean ====
section
/-! SUPPORT. One lemma per shared operation of the sequencer: what each phase step is, and everything it can do. -/

namespace Sys2Proof.Machine

/-! ## From a command to its plan -/

theorem exec_of_plan {i : Instr} {p : Plan} (h : planOf i = some p) (s : State) :
    exec i s = transact p i.timeoutField s := by
  cases i <;> simp only [planOf, Option.some.injEq, reduceCtorEq] at h <;> subst h <;> rfl

/-- The Modbus operations are the commands with a plan. -/
theorem planOf_cases (i : Instr) : (∃ p, planOf i = some p) ∨ (∃ n, i = .crcCompute n) ∨ ∃ n, i = .crcValidate n := by
  cases i <;> simp [planOf]

section
variable {p : Plan} {t : BitVec 32} {s : State}

theorem transact_idle (hb : s.busy = false) : transact p t s = .next (start s) := by simp [transact, hb]

theorem transact_check (hb : s.busy = true) (hp : s.ph = .check) : transact p t s = .next (checkPhase p s) := by
  simp [transact, hb, hp]

theorem transact_init (hb : s.busy = true) (hp : s.ph = .init) : transact p t s = .next (initPhase s) := by
  simp [transact, hb, hp]

theorem transact_flush (hb : s.busy = true) (hp : s.ph = .flush) : transact p t s = .next (flushPhase s) := by
  simp [transact, hb, hp]

theorem transact_build (hb : s.busy = true) (hp : s.ph = .build) : transact p t s = buildPhase p s := by
  simp [transact, hb, hp]

theorem transact_gapw (hb : s.busy = true) (hp : s.ph = .gapw) : transact p t s = .next (gapwPhase s) := by
  simp [transact, hb, hp]

theorem transact_write (hb : s.busy = true) (hp : s.ph = .write) : transact p t s = writePhase s := by
  simp [transact, hb, hp]

theorem transact_drain (hb : s.busy = true) (hp : s.ph = .drain) : transact p t s = .next (drainPhase s) := by
  simp [transact, hb, hp]

theorem transact_gapr (hb : s.busy = true) (hp : s.ph = .gapr) : transact p t s = .next (gaprPhase t s) := by
  simp [transact, hb, hp]

theorem transact_read (hb : s.busy = true) (hp : s.ph = .read) : transact p t s = readPhase s := by
  simp [transact, hb, hp]

theorem transact_vcrc (hb : s.busy = true) (hp : s.ph = .vcrc) : transact p t s = vcrcPhase s := by
  simp [transact, hb, hp]

theorem transact_vid (hb : s.busy = true) (hp : s.ph = .vid) : transact p t s = vidPhase p s := by
  simp [transact, hb, hp]

theorem transact_extract (hb : s.busy = true) (hp : s.ph = .extract) : transact p t s = extractPhase p s := by
  simp [transact, hb, hp]

end

theorem crcCommand_idle {n : Word} {run : List Byte → State → State} {s : State} (hb : s.busy = false) :
    crcCommand n run s = .next (start s) := by simp [crcCommand, hb]

theorem crcCommand_check {n : Word} {run : List Byte → State → State} {s : State} (hb : s.busy = true)
    (hp : s.ph = .check) : crcCommand n run s = .next (checkCrcPhase n s) := by simp [crcCommand, hb, hp]

theorem crcCommand_crcop {n : Word} {run : List Byte → State → State} {s : State} (hb : s.busy = true)
    (hp : s.ph = .crcop) : crcCommand n run s = withRange .wdata 0 n.toNat s fun bs => .next (run bs s) := by
  simp [crcCommand, hb, hp]

/-- Everything a CRC unit command can do. -/
theorem crcCommand_next {n : Word} {run : List Byte → State → State} {s u : State} (h : crcCommand n run s = .next u) :
    (s.busy = false ∧ u = start s) ∨
    (s.busy = true ∧ s.ph = .check ∧ u = checkCrcPhase n s) ∨
    (s.busy = true ∧ s.ph = .crcop ∧ ∃ bs, readRange .wdata 0 n.toNat s = some bs ∧ u = run bs s) ∨
    (s.busy = true ∧ s.ph ≠ .check ∧ s.ph ≠ .crcop ∧ u = s) := by
  by_cases hb : s.busy = true
  · cases hp : s.ph
    case check =>
      rw [crcCommand_check hb hp] at h; injection h with h
      exact .inr (.inl ⟨hb, rfl, h.symm⟩)
    case crcop =>
      rw [crcCommand_crcop hb hp] at h
      obtain ⟨bs, h1, h2⟩ := withRange_next h
      injection h2 with h2
      exact .inr (.inr (.inl ⟨hb, rfl, bs, h1, h2.symm⟩))
    all_goals
      simp only [crcCommand, hb, hp, if_true] at h
      injection h with h
      exact .inr (.inr (.inr ⟨hb, by simp, by simp, h.symm⟩))
  · rw [Bool.not_eq_true] at hb
    rw [crcCommand_idle hb] at h; injection h with h
    exact .inl ⟨hb, h.symm⟩

/-! ## What a plan of a command in range keeps within -/

/-- The plan reaches outside no buffer (43_operations R251) and predetermines a reply longer than an exception frame
(30_encoding R114). -/
structure PlanFits (p : Plan) : Prop where
  slave : p.slave ≠ 0
  passes : p.emptyWrite = false → p.inBounds = true
  data : p.dataLen ≤ Config.wdataDepth
  request : p.fields.length + p.dataLen + 4 ≤ Config.maxAdu
  replyLong : 6 ≤ p.replyLen
  reply : p.replyLen ≤ Config.maxAdu
  echo : ∀ len, p.echo = some len → 2 ≤ len ∧ len ≤ p.replyLen ∧ len ≤ p.fields.length + p.dataLen + 2
  coils : ∀ n, p.result = .coils n → n ≤ Config.rdataDepth ∧ 3 + (n + 7) / 8 ≤ p.replyLen
  bytes : ∀ off n, p.result = .bytes off n → n ≤ Config.rdataDepth ∧ off + n ≤ p.replyLen

theorem word_ne_zero_iff (n : Word) : n ≠ 0 ↔ 1 ≤ n.toNat := by
  have : n = 0 ↔ n.toNat = 0 := by rw [← BitVec.toNat_inj]; rfl
  rw [ne_eq, this]
  omega

theorem planFits {i : Instr} {p : Plan} (h : planOf i = some p) (hw : i.wellFormed = true) : PlanFits p := by
  cases i <;> simp only [planOf, Option.some.injEq, reduceCtorEq] at h <;> subst h <;>
    simp [Instr.wellFormed, Instr.slaveOk, Instr.countOk, Config.maxCoils, Config.maxReadRegisters,
      Config.maxWriteRegisters, Config.maxBytes] at hw
  case rdCoils a m n t =>
    exact ⟨by simpa [planRdCoils] using hw.1, by simp [planRdCoils, Config.maxCoils]; omega, by simp [planRdCoils, Config.wdataDepth],
      by simp [planRdCoils, be16, Config.maxAdu], by simp [planRdCoils]; omega, by simp [planRdCoils, Config.maxAdu]; omega,
      by simp [planRdCoils], by simp [planRdCoils, Config.rdataDepth]; omega, by simp [planRdCoils]⟩
  case rdRegisters a m n t =>
    exact ⟨by simpa [planRdRegisters] using hw.1, by simp [planRdRegisters, Config.maxReadRegisters]; omega, by simp [planRdRegisters, Config.wdataDepth],
      by simp [planRdRegisters, be16, Config.maxAdu], by simp [planRdRegisters]; omega,
      by simp [planRdRegisters, Config.maxAdu]; omega, by simp [planRdRegisters], by simp [planRdRegisters],
      by simp [planRdRegisters, Config.rdataDepth]; omega⟩
  case wrCoil a m v t =>
    exact ⟨by simpa [planWrCoil] using hw, by simp [planWrCoil], by simp [planWrCoil, Config.wdataDepth], by simp [planWrCoil, be16, Config.maxAdu],
      by simp [planWrCoil], by simp [planWrCoil, Config.maxAdu], by simp [planWrCoil, be16], by simp [planWrCoil],
      by simp [planWrCoil]⟩
  case wrRegister a m v t =>
    exact ⟨by simpa [planWrRegister] using hw, by simp [planWrRegister], by simp [planWrRegister, Config.wdataDepth],
      by simp [planWrRegister, be16, Config.maxAdu], by simp [planWrRegister], by simp [planWrRegister, Config.maxAdu],
      by simp [planWrRegister, be16], by simp [planWrRegister], by simp [planWrRegister]⟩
  case wrRegisters a m n t =>
    refine ⟨by simpa [planWrRegisters] using hw.1, ?_, by simp [planWrRegisters, Config.wdataDepth]; omega,
      by simp [planWrRegisters, be16, Config.maxAdu]; omega, by simp [planWrRegisters],
      by simp [planWrRegisters, Config.maxAdu], by simp [planWrRegisters, be16]; omega, by simp [planWrRegisters],
      by simp [planWrRegisters]⟩
    intro he
    have := (word_ne_zero_iff n).1 (by simpa [planWrRegisters] using he)
    simp [planWrRegisters, Config.maxWriteRegisters]; omega
  case rdBytes a m n t =>
    exact ⟨by simpa [planRdBytes] using hw.1, by simp [planRdBytes, Config.maxBytes]; omega, by simp [planRdBytes, Config.wdataDepth],
      by simp [planRdBytes, be16, Config.maxAdu], by simp [planRdBytes]; omega,
      by simp [planRdBytes, Config.maxAdu]; omega, by simp [planRdBytes], by simp [planRdBytes],
      by simp [planRdBytes, Config.rdataDepth]; omega⟩
  case wrBytes a m n t =>
    refine ⟨by simpa [planWrBytes] using hw.1, ?_, by simp [planWrBytes, Config.wdataDepth]; omega,
      by simp [planWrBytes, be16, Config.maxAdu]; omega, ?_,
      by simp [planWrBytes, Config.maxAdu]; omega, by simp [planWrBytes, be16]; omega, by simp [planWrBytes],
      by simp [planWrBytes]⟩
    · intro he
      have := (word_ne_zero_iff n).1 (by simpa [planWrBytes] using he)
      simp [planWrBytes, Config.maxBytes]; omega
    · have := (word_ne_zero_iff n).1
      simp [planWrBytes]; omega

@[simp] theorem head_length (p : Plan) (data : List Byte) : (p.head data).length = p.fields.length + data.length + 2 := by
  simp [Plan.head]

@[simp] theorem request_length (p : Plan) (data : List Byte) :
    (p.request data).length = p.fields.length + data.length + 4 := by
  simp [Plan.request]

/-! ## Everything each phase can do -/

theorem checkPhase_cases (p : Plan) (s : State) :
    checkPhase p s = raise .bounds s ∨ (p.emptyWrite = true ∧ checkPhase p s = completeOk s) ∨
    (p.slave ≠ 0 ∧ p.emptyWrite = false ∧ p.inBounds = true ∧
      checkPhase p s = { s with ph := if s.xport = .opened then .flush else .init }) := by
  unfold checkPhase
  split
  · exact .inl rfl
  · split
    · exact .inr (.inl ⟨‹_›, rfl⟩)
    · next h1 h2 =>
      split
      · next h3 => exact .inr (.inr ⟨h1, by simpa using h2, h3, rfl⟩)
      · exact .inl rfl

theorem checkCrcPhase_cases (n : Word) (s : State) :
    (Config.wdataDepth < n.toNat ∧ checkCrcPhase n s = raise .bounds s) ∨
    (n.toNat ≤ Config.wdataDepth ∧ checkCrcPhase n s = { s with ph := .crcop }) := by
  unfold checkCrcPhase
  split
  · exact .inl ⟨‹_›, rfl⟩
  · exact .inr ⟨Nat.le_of_not_lt ‹_›, rfl⟩

theorem initPhase_cases (s : State) :
    initPhase s = { openPort s with ph := .flush } ∨ initPhase s = raise .systemCall s ∨
    initPhase s = raise .consistency s := by
  unfold initPhase
  split <;> simp

theorem flushPhase_cases (s : State) :
    flushPhase s = raise .systemCall s ∨ flushPhase s = { flushPort s with ph := .build } := by
  unfold flushPhase
  split <;> simp

/-- BUILD, when it goes on. -/
theorem buildPhase_next {p : Plan} {s t : State} (h : buildPhase p s = .next t) :
    ∃ data, readRange .wdata 0 p.dataLen s = some data ∧ p.replyLen ≤ Config.maxAdu ∧
      (p.request data).length ≤ Config.maxAdu ∧
      t = { s with req := s.req.setRange 0 (p.request data), reqLen := BitVec.ofNat 9 (p.request data).length,
                   repLen := BitVec.ofNat 9 p.replyLen, crcAcc := crc16 (p.head data), crcOut := crc16 (p.head data),
                   ph := .gapw } := by
  obtain ⟨data, hd, h⟩ := withRange_next h
  split at h
  · cases h
  · obtain ⟨hb, h⟩ := withStore_next h
    injection h with h
    refine ⟨data, hd, Nat.le_of_not_lt ‹_›, by simpa [spaceSize] using hb, h.symm⟩

/-- BUILD goes on whenever the plan fits. -/
theorem buildPhase_eq {p : Plan} {s : State} {data : List Byte} (hd : readRange .wdata 0 p.dataLen s = some data)
    (hr : p.replyLen ≤ Config.maxAdu) (hq : (p.request data).length ≤ Config.maxAdu) :
    buildPhase p s = .next { s with req := s.req.setRange 0 (p.request data),
                                    reqLen := BitVec.ofNat 9 (p.request data).length,
                                    repLen := BitVec.ofNat 9 p.replyLen, crcAcc := crc16 (p.head data),
                                    crcOut := crc16 (p.head data), ph := .gapw } := by
  unfold buildPhase
  rw [withRange_eq hd, if_neg (Nat.not_lt.2 hr), withStore_eq s (by simpa [spaceSize] using hq)]
  rfl

theorem gapStep_cases (enter : State → State) (s : State) :
    ((s.tsValid = true → s.ts + Config.interFrame ≤ s.now) ∧ gapStep enter s = enter s) ∨
    (s.tsValid = true ∧ s.now ≤ s.ts ∧ gapStep enter s = raise .timing s) ∨
    (s.tsValid = true ∧ s.ts < s.now ∧ s.now < s.ts + Config.interFrame ∧ gapStep enter s = s) := by
  unfold gapStep
  by_cases h1 : s.tsValid = true
  · by_cases h2 : s.now ≤ s.ts
    · simp [h1, h2]
    · by_cases h3 : s.ts + Config.interFrame ≤ s.now
      · simp [h1, h2, h3]
      · simp [h1, h2, h3]; omega
  · simp [h1]

/-- WRITE, when it goes on. -/
theorem writePhase_next {s t : State} (h : writePhase s = .next t) :
    (s.draw.fault = true ∧ t = raise .systemCall s) ∨
    (s.draw.fault = false ∧ ∃ bs, readRange .req 0 (min s.draw.accepts s.reqLen.toNat) s = some bs ∧
      ((bs.length < s.reqLen.toNat ∧ t = raise .request (stamp (acceptBytes bs s))) ∨
       (bs.length = s.reqLen.toNat ∧ t = { stamp (acceptBytes bs s) with ph := .drain }))) := by
  unfold writePhase at h
  split at h
  · injection h with h
    exact .inl ⟨‹_›, h.symm⟩
  · next hf =>
    obtain ⟨bs, hb, h⟩ := withRange_next h
    have hlen := readRange_length hb
    refine .inr ⟨by simpa using hf, bs, hb, ?_⟩
    simp only at h
    split at h
    · injection h with h; exact .inl ⟨‹_›, h.symm⟩
    · injection h with h; exact .inr ⟨by omega, h.symm⟩

theorem drainPhase_cases (s : State) :
    (s.draw.fault = true ∧ drainPhase s = raise .systemCall s) ∨
    (s.draw.fault = false ∧ s.txq = [] ∧ drainPhase s = { stamp s with ph := .gapr }) ∨
    (s.draw.fault = false ∧ s.txq ≠ [] ∧ drainPhase s = s) := by
  unfold drainPhase
  by_cases h1 : s.draw.fault = true
  · simp [h1]
  · by_cases h2 : s.txq = [] <;> simp [h1, h2]

/-- The READ byte step, when it goes on. -/
theorem takeByte_next {d : Byte} {q : List Byte} {s t : State} (h : takeByte d q s = .next t) :
    s.rxn.toNat < Config.maxAdu ∧
      t = { s with rep := s.rep.setRange s.rxn.toNat [d], rxq := q, rxn := s.rxn + 1, rxCount := s.rxCount + 1 } := by
  obtain ⟨hb, h⟩ := withStore_next h
  injection h with h
  exact ⟨by simpa [spaceSize] using hb, h.symm⟩

theorem takeByte_eq {d : Byte} {q : List Byte} {s : State} (h : s.rxn.toNat < Config.maxAdu) :
    takeByte d q s =
      .next { s with rep := s.rep.setRange s.rxn.toNat [d], rxq := q, rxn := s.rxn + 1, rxCount := s.rxCount + 1 } := by
  unfold takeByte
  rw [withStore_eq s (by simpa [spaceSize] using h)]
  rfl

/-- READ, when it goes on: a fault, the byte step, the end step, or a wait. -/
theorem readPhase_next {s t : State} (h : readPhase s = .next t) :
    (s.draw.fault = true ∧ t = raise .systemCall s) ∨
    (s.draw.fault = false ∧
      ((∃ d q, s.rxq = d :: q ∧ s.rxn < s.repLen ∧ takeByte d q s = .next t) ∨
       (readEnds s = true ∧ t = endRead s) ∨
       (readEnds s = false ∧ t = s))) := by
  unfold readPhase at h
  split at h
  · injection h with h
    exact .inl ⟨‹_›, h.symm⟩
  · next hf =>
    refine .inr ⟨by simpa using hf, ?_⟩
    split at h
    · next d q hq =>
      split at h
      · next hc =>
        simp only [Bool.and_eq_true, decide_eq_true_eq] at hc
        exact .inl ⟨d, q, hq, hc.1, h⟩
      · split at h
        · injection h with h; exact .inr (.inl ⟨‹_›, h.symm⟩)
        · next he => injection h with h; exact .inr (.inr ⟨by simpa using he, h.symm⟩)
    · split at h
      · injection h with h; exact .inr (.inl ⟨‹_›, h.symm⟩)
      · next he => injection h with h; exact .inr (.inr ⟨by simpa using he, h.symm⟩)

theorem endRead_cases (s : State) :
    (s.rxn = 0 ∧ endRead s = raise .timeout (stamp s)) ∨ (s.rxn ≠ 0 ∧ endRead s = { stamp s with ph := .vcrc }) := by
  unfold endRead
  split
  · exact .inl ⟨‹_›, rfl⟩
  · exact .inr ⟨‹_›, rfl⟩

/-- Everything the checker can do. -/
theorem checkFrame_cases (f : List Byte) (ok : State → State) (s : State) :
    (f.length < 3 ∧ checkFrame f ok s = raise .crc s) ∨
    (3 ≤ f.length ∧
      ((receivedCrc f = crc16 (frameBody f) ∧
          checkFrame f ok s = ok { s with crcAcc := crc16 (frameBody f), crcOut := crc16 (frameBody f) }) ∨
       (receivedCrc f ≠ crc16 (frameBody f) ∧
          checkFrame f ok s = raise .crc { s with crcAcc := crc16 (frameBody f), crcOut := crc16 (frameBody f) }))) := by
  unfold checkFrame computedCrc Config.crcMinFrame
  by_cases h : f.length < 3
  · simp [h]
  · by_cases h2 : receivedCrc f = crc16 (frameBody f) <;> simp [h, h2, Nat.le_of_not_lt h]

/-- Exception detection writes EXC and EXC_CODE only. -/
theorem noteException_eq (s : State) :
    noteException s = { s with exc := (noteException s).exc, excCode := (noteException s).excCode } := by
  unfold noteException
  split <;> rfl

theorem noteException_of_not {s : State}
    (h : ¬ (s.rxn = 5 ∧ readByte .rep 0 s = readByte .req 0 s ∧ readByte .rep 1 s = readByte .req 1 s ||| 0x80)) :
    noteException s = s := if_neg h

/-- VID, when it goes on. -/
theorem vidPhase_next {p : Plan} {s t : State} (h : vidPhase p s = .next t) :
    t = raise .reply (noteException s) ∨ (s.rxn = s.repLen ∧ t = { noteException s with ph := .extract }) := by
  unfold vidPhase at h
  split at h
  · unfold vidEcho at h
    split at h
    · injection h with h; exact .inl h.symm
    · obtain ⟨_, _, h⟩ := withRange_next h
      obtain ⟨_, _, h⟩ := withRange_next h
      split at h
      · injection h with h
        exact .inr ⟨by simpa using ‹¬ s.rxn ≠ s.repLen›, h.symm⟩
      · injection h with h; exact .inl h.symm
  · injection h with h
    subst h
    unfold vidIdentity
    split
    · exact .inr ⟨(‹_ ∧ _ ∧ _›).2.2, rfl⟩
    · exact .inl rfl

/-- The result of EXTRACT in RDATA, when it goes on. -/
theorem deliverResult_next {bs : List Byte} {s t : State} (h : deliverResult bs s = .next t) :
    bs.length ≤ Config.rdataDepth ∧
      t = { completeOk s with rdata := s.rdata.setRange 0 bs, resLen := BitVec.ofNat 11 bs.length } := by
  obtain ⟨hb, h⟩ := withStore_next h
  injection h with h
  exact ⟨by simpa [spaceSize] using hb, h.symm⟩

theorem deliverResult_eq {bs : List Byte} {s : State} (h : bs.length ≤ Config.rdataDepth) :
    deliverResult bs s =
      .next { completeOk s with rdata := s.rdata.setRange 0 bs, resLen := BitVec.ofNat 11 bs.length } := by
  unfold deliverResult
  rw [withStore_eq s (by simpa [spaceSize] using h)]
  rfl

/-- EXTRACT, when it goes on. -/
theorem extractPhase_next {p : Plan} {s t : State} (h : extractPhase p s = .next t) :
    t = completeOk s ∨ ∃ bs, deliverResult bs s = .next t := by
  unfold extractPhase at h
  split at h
  · injection h with h; exact .inl h.symm
  · obtain ⟨bs, _, h⟩ := withRange_next h; exact .inr ⟨_, h⟩
  · obtain ⟨bs, _, h⟩ := withRange_next h; exact .inr ⟨_, h⟩

@[simp] theorem unpackCoils_length (packed : List Byte) (n : Nat) : (unpackCoils packed n).length = n := by
  simp [unpackCoils]

end Sys2Proof.Machine
end

