-- ==== Sys2Proof/Laws/Steps.lean ====
section
/-! SUPPORT. Everything one sequencer step of a command can do, and everything one event can do, each said once: the
other laws and the proofs go by cases on these. -/

namespace Sys2Proof.Machine

/-! ## One sequencer step of a command -/

/-- The next states of a sequencer step of `i` in `s`, one constructor per way a phase can go. -/
inductive CommandStep (i : Instr) (s : State) : State → Prop where
  | starts (hb : s.busy = false) : CommandStep i s (start s)
  | noRule (hb : s.busy = true)
      (hp : s.ph = .idle ∨ ((∃ p, planOf i = some p) ∧ s.ph = .crcop) ∨
        (planOf i = none ∧ s.ph ≠ .check ∧ s.ph ≠ .crcop)) : CommandStep i s s
  | checkFails (hb : s.busy = true) (hp : s.ph = .check) : CommandStep i s (raise .bounds s)
  | checkEmpty (hb : s.busy = true) (hp : s.ph = .check) (p : Plan) (hi : planOf i = some p)
      (he : p.emptyWrite = true) : CommandStep i s (completeOk s)
  | checkPasses (hb : s.busy = true) (hp : s.ph = .check) (p : Plan) (hi : planOf i = some p) (hs : p.slave ≠ 0)
      (he : p.emptyWrite = false) (hn : p.inBounds = true) :
      CommandStep i s { s with ph := if s.xport = .opened then .flush else .init }
  | checkCrc (hb : s.busy = true) (hp : s.ph = .check) (hi : planOf i = none)
      (hn : i.countField.toNat ≤ Config.wdataDepth) : CommandStep i s { s with ph := .crcop }
  | initOpens (hb : s.busy = true) (hp : s.ph = .init) : CommandStep i s { openPort s with ph := .flush }
  | initFails (hb : s.busy = true) (hp : s.ph = .init) (k : ErrorKind) (hk : k = .systemCall ∨ k = .consistency) :
      CommandStep i s (raise k s)
  | portFault (hb : s.busy = true) (hp : s.ph = .flush ∨ s.ph = .write ∨ s.ph = .drain ∨ s.ph = .read)
      (hf : s.draw.fault = true) : CommandStep i s (raise .systemCall s)
  | flushes (hb : s.busy = true) (hp : s.ph = .flush) (hf : s.draw.fault = false) :
      CommandStep i s { flushPort s with ph := .build }
  | builds (hb : s.busy = true) (hp : s.ph = .build) (p : Plan) (hi : planOf i = some p) (data : List Byte)
      (hd : readRange .wdata 0 p.dataLen s = some data) (hr : p.replyLen ≤ Config.maxAdu)
      (hq : (p.request data).length ≤ Config.maxAdu) :
      CommandStep i s { s with req := s.req.setRange 0 (p.request data), reqLen := BitVec.ofNat 9 (p.request data).length,
                               repLen := BitVec.ofNat 9 p.replyLen, crcAcc := crc16 (p.head data),
                               crcOut := crc16 (p.head data), ph := .gapw }
  | gapwPasses (hb : s.busy = true) (hp : s.ph = .gapw) (hg : s.tsValid = true → s.ts + Config.interFrame ≤ s.now) :
      CommandStep i s { s with ph := .write }
  | gaprPasses (hb : s.busy = true) (hp : s.ph = .gapr) (hg : s.tsValid = true → s.ts + Config.interFrame ≤ s.now) :
      CommandStep i s { s with t0 := s.now, dl := i.timeoutField.toNat * 1000, ph := .read }
  | gapEarly (hb : s.busy = true) (hp : s.ph = .gapw ∨ s.ph = .gapr) (hv : s.tsValid = true) (hn : s.now ≤ s.ts) :
      CommandStep i s (raise .timing s)
  | waits (hb : s.busy = true) (hp : Machine.waits s.ph = true) : CommandStep i s s
  | writesShort (hb : s.busy = true) (hp : s.ph = .write) (hf : s.draw.fault = false) (bs : List Byte)
      (hs : readRange .req 0 (min s.draw.accepts s.reqLen.toNat) s = some bs) (hl : bs.length < s.reqLen.toNat) :
      CommandStep i s (raise .request (stamp (acceptBytes bs s)))
  | writesAll (hb : s.busy = true) (hp : s.ph = .write) (hf : s.draw.fault = false) (bs : List Byte)
      (hs : readRange .req 0 (min s.draw.accepts s.reqLen.toNat) s = some bs) (hl : bs.length = s.reqLen.toNat) :
      CommandStep i s { stamp (acceptBytes bs s) with ph := .drain }
  | drained (hb : s.busy = true) (hp : s.ph = .drain) (hf : s.draw.fault = false) (hq : s.txq = []) :
      CommandStep i s { stamp s with ph := .gapr }
  | readByte (hb : s.busy = true) (hp : s.ph = .read) (hf : s.draw.fault = false) (d : Byte) (q : List Byte)
      (hq : s.rxq = d :: q) (hl : s.rxn < s.repLen) (hn : s.rxn.toNat < Config.maxAdu) :
      CommandStep i s { s with rep := s.rep.setRange s.rxn.toNat [d], rxq := q, rxn := s.rxn + 1,
                               rxCount := s.rxCount + 1 }
  | readTimeout (hb : s.busy = true) (hp : s.ph = .read) (hf : s.draw.fault = false) (he : readEnds s = true)
      (hn : s.rxn = 0) : CommandStep i s (raise .timeout (stamp s))
  | readDone (hb : s.busy = true) (hp : s.ph = .read) (hf : s.draw.fault = false) (he : readEnds s = true)
      (hn : s.rxn ≠ 0) : CommandStep i s { stamp s with ph := .vcrc }
  | crcShort (hb : s.busy = true) (hp : s.ph = .vcrc ∨ s.ph = .crcop) : CommandStep i s (raise .crc s)
  | crcFails (hb : s.busy = true) (hp : s.ph = .vcrc ∨ s.ph = .crcop) (c : Word) :
      CommandStep i s (raise .crc { s with crcAcc := c, crcOut := c })
  | vcrcPasses (hb : s.busy = true) (hp : s.ph = .vcrc) (c : Word) (hn : 3 ≤ s.rxn.toNat) :
      CommandStep i s { s with crcAcc := c, crcOut := c, ph := .vid }
  | vidFails (hb : s.busy = true) (hp : s.ph = .vid) : CommandStep i s (raise .reply (noteException s))
  | vidPasses (hb : s.busy = true) (hp : s.ph = .vid) (hn : s.rxn = s.repLen) :
      CommandStep i s { noteException s with ph := .extract }
  | extractsNothing (hb : s.busy = true) (hp : s.ph = .extract) : CommandStep i s (completeOk s)
  | extracts (hb : s.busy = true) (hp : s.ph = .extract) (bs : List Byte) (hl : bs.length ≤ Config.rdataDepth) :
      CommandStep i s { completeOk s with rdata := s.rdata.setRange 0 bs, resLen := BitVec.ofNat 11 bs.length }
  | crcop (hb : s.busy = true) (hp : s.ph = .crcop) (c : Word) :
      CommandStep i s (completeOk { s with crcAcc := c, crcOut := c })

theorem transact_step {i : Instr} {p : Plan} {s t : State} (hi : planOf i = some p)
    (h : transact p i.timeoutField s = .next t) : CommandStep i s t := by
  by_cases hb : s.busy = true
  · cases hp : s.ph
    case idle =>
      simp only [transact, hb, hp, if_true] at h; injection h with h; subst h
      exact .noRule hb (.inl hp)
    case crcop =>
      simp only [transact, hb, hp, if_true] at h; injection h with h; subst h
      exact .noRule hb (.inr (.inl ⟨⟨p, hi⟩, hp⟩))
    case check =>
      rw [transact_check hb hp] at h; injection h with h; subst h
      rcases checkPhase_cases p s with e | ⟨he, e⟩ | ⟨hs, he, hn, e⟩ <;> rw [e]
      · exact .checkFails hb hp
      · exact .checkEmpty hb hp p hi he
      · exact .checkPasses hb hp p hi hs he hn
    case init =>
      rw [transact_init hb hp] at h; injection h with h; subst h
      rcases initPhase_cases s with e | e | e <;> rw [e]
      · exact .initOpens hb hp
      · exact .initFails hb hp _ (.inl rfl)
      · exact .initFails hb hp _ (.inr rfl)
    case flush =>
      rw [transact_flush hb hp] at h; injection h with h; subst h
      unfold flushPhase
      split
      · exact .portFault hb (.inl hp) ‹_›
      · exact .flushes hb hp (by simpa using ‹¬ s.draw.fault = true›)
    case build =>
      rw [transact_build hb hp] at h
      obtain ⟨data, hd, hr, hq, rfl⟩ := buildPhase_next h
      exact .builds hb hp p hi data hd hr hq
    case gapw =>
      rw [transact_gapw hb hp] at h; injection h with h; subst h
      rcases gapStep_cases (fun t => { t with ph := .write }) s with ⟨hg, e⟩ | ⟨hv, hn, e⟩ | ⟨_, _, _, e⟩ <;>
        rw [gapwPhase, e]
      · exact .gapwPasses hb hp hg
      · exact .gapEarly hb (.inl hp) hv hn
      · exact .waits hb (by rw [hp]; rfl)
    case gapr =>
      rw [transact_gapr hb hp] at h; injection h with h; subst h
      rcases gapStep_cases (enterRead i.timeoutField) s with ⟨hg, e⟩ | ⟨hv, hn, e⟩ | ⟨_, _, _, e⟩ <;> rw [gaprPhase, e]
      · exact .gaprPasses hb hp hg
      · exact .gapEarly hb (.inr hp) hv hn
      · exact .waits hb (by rw [hp]; rfl)
    case write =>
      rw [transact_write hb hp] at h
      rcases writePhase_next h with ⟨hf, rfl⟩ | ⟨hf, bs, hs, ⟨hl, rfl⟩ | ⟨hl, rfl⟩⟩
      · exact .portFault hb (.inr (.inl hp)) hf
      · exact .writesShort hb hp hf bs hs hl
      · exact .writesAll hb hp hf bs hs hl
    case drain =>
      rw [transact_drain hb hp] at h; injection h with h; subst h
      rcases drainPhase_cases s with ⟨hf, e⟩ | ⟨hf, hq, e⟩ | ⟨_, _, e⟩ <;> rw [e]
      · exact .portFault hb (.inr (.inr (.inl hp))) hf
      · exact .drained hb hp hf hq
      · exact .waits hb (by rw [hp]; rfl)
    case read =>
      rw [transact_read hb hp] at h
      rcases readPhase_next h with ⟨hf, rfl⟩ | ⟨hf, ⟨d, q, hq, hl, h⟩ | ⟨he, rfl⟩ | ⟨_, rfl⟩⟩
      · exact .portFault hb (.inr (.inr (.inr hp))) hf
      · obtain ⟨hn, rfl⟩ := takeByte_next h
        exact .readByte hb hp hf d q hq hl hn
      · rcases endRead_cases s with ⟨hn, e⟩ | ⟨hn, e⟩ <;> rw [e]
        · exact .readTimeout hb hp hf he hn
        · exact .readDone hb hp hf he hn
      · exact .waits hb (by rw [hp]; rfl)
    case vcrc =>
      rw [transact_vcrc hb hp] at h
      obtain ⟨f, hf, h⟩ := withRange_next h
      injection h with h
      subst h
      have hl := readRange_length hf
      rcases checkFrame_cases f (fun t => { t with ph := .vid }) s with ⟨_, e⟩ | ⟨hn, ⟨_, e⟩ | ⟨_, e⟩⟩ <;> rw [e]
      · exact .crcShort hb (.inl hp)
      · exact .vcrcPasses hb hp _ (by omega)
      · exact .crcFails hb (.inl hp) _
    case vid =>
      rw [transact_vid hb hp] at h
      rcases vidPhase_next h with rfl | ⟨hn, rfl⟩
      · exact .vidFails hb hp
      · exact .vidPasses hb hp hn
    case extract =>
      rw [transact_extract hb hp] at h
      rcases extractPhase_next h with rfl | ⟨bs, h⟩
      · exact .extractsNothing hb hp
      · obtain ⟨hl, rfl⟩ := deliverResult_next h
        exact .extracts hb hp bs hl
  · rw [Bool.not_eq_true] at hb
    rw [transact_idle hb] at h; injection h with h; subst h
    exact .starts hb

theorem crcCommand_step {i : Instr} {run : List Byte → State → State} {s t : State} (hi : planOf i = none)
    (hrun : ∀ bs, s.busy = true → s.ph = .crcop → CommandStep i s (run bs s))
    (h : crcCommand i.countField run s = .next t) : CommandStep i s t := by
  rcases crcCommand_next h with ⟨hb, rfl⟩ | ⟨hb, hp, rfl⟩ | ⟨hb, hp, bs, _, rfl⟩ | ⟨hb, h1, h2, rfl⟩
  · exact .starts hb
  · rcases checkCrcPhase_cases i.countField s with ⟨_, e⟩ | ⟨hn, e⟩ <;> rw [e]
    · exact .checkFails hb hp
    · exact .checkCrc hb hp hi hn
  · exact hrun bs hb hp
  · exact .noRule hb (.inr (.inr ⟨hi, h1, h2⟩))

/-- Everything a sequencer step of a command can do. -/
theorem exec_step {i : Instr} {s t : State} (h : exec i s = .next t) : CommandStep i s t := by
  rcases planOf_cases i with ⟨p, hi⟩ | ⟨n, rfl⟩ | ⟨n, rfl⟩
  · rw [exec_of_plan hi] at h
    exact transact_step hi h
  · exact crcCommand_step rfl (fun bs hb hp => .crcop hb hp (crc16 bs)) h
  · refine crcCommand_step rfl (fun bs hb hp => ?_) h
    rcases checkFrame_cases bs completeOk s with ⟨_, e⟩ | ⟨_, ⟨_, e⟩ | ⟨_, e⟩⟩ <;> rw [validateStep, e]
    · exact .crcShort hb (.inr hp)
    · exact .crcop hb hp _
    · exact .crcFails hb (.inr hp) _

/-! ## One event -/

theorem runCommand_ok {s : State} {i : Instr} (h : decode (commandWord s) = .ok i) : runCommand s = exec i s := by
  simp [runCommand, h]

theorem runCommand_error {s : State} {e : DecodeError} (h : decode (commandWord s) = .error e) :
    runCommand s = .next (illegalCommand s) := by simp [runCommand, h]

theorem exec_idle {i : Instr} {s : State} (hb : s.busy = false) : exec i s = .next (start s) := by
  rcases planOf_cases i with ⟨p, hi⟩ | ⟨n, rfl⟩ | ⟨n, rfl⟩
  · rw [exec_of_plan hi, transact_idle hb]
  · exact crcCommand_idle hb
  · exact crcCommand_idle hb

/-- START, whatever OP holds (42_sequencer R190). -/
theorem runCommand_idle {s : State} (hb : s.busy = false) : runCommand s = .next (start s) := by
  cases h : decode (commandWord s) with
  | ok i => rw [runCommand_ok h, exec_idle hb]
  | error e => rw [runCommand_error h]; simp [illegalCommand, hb]

theorem onNext_next {f : State → State} {o : Host.Outcome State Fault Refusal} {t : State} (h : onNext f o = .next t) :
    ∃ u, o = .next u ∧ t = f u := by
  cases o with
  | next u => injection h with h; exact ⟨u, rfl, h.symm⟩
  | fault r => cases h
  | refused r => cases h

/-- The next states of one event in `s`. -/
inductive EventStep (s : State) : Event → State → Prop where
  | reads (a : HostAction) (v : BitVec 64) : EventStep s (.host a) (hostSees v s)
  | writesOperand (r : Reg) (v : BitVec 64) (hb : s.busy = false) (t : State)
      (ht : t = { s with op := t.op, slave := t.slave, maddr := t.maddr, count := t.count, value := t.value,
                         timeoutMs := t.timeoutMs }) : EventStep s (.host (.write r v)) t
  | writesCfg (v : BitVec 64) : EventStep s (.host (.write .cfg v)) { s with cfg := mergeCfg s.cfg (v.setWidth 8) }
  | writesNothing (r : Reg) (v : BitVec 64) : EventStep s (.host (.write r v)) s
  | writesWData (i : Nat) (b : Byte) (hb : s.busy = false) (hi : i < Config.wdataDepth) :
      EventStep s (.host (.writeBuffer .wdata i b)) { s with wdata := s.wdata.set i b }
  | writesReadOnly (sp : Space) (i : Nat) (b : Byte) : EventStep s (.host (.writeBuffer sp i b)) s
  | strobes (v : BitVec 64) (r : Strobes) : EventStep s (.host (.write .ctrl v)) (clearCounters r s)
  | starts (v : BitVec 64) (r : Strobes) (hb : s.busy = false) :
      EventStep s (.host (.write .ctrl v)) (start (clearCounters r s))
  | line (a : LineAction) : EventStep s (.line a) (lineStep a s)
  | time (n : Nat) : EventStep s (.time n) { s with now := n }
  | command (d : Draw) (r : Strobes) (i : Instr) (u : State) (hb : s.busy = true) (hi : decode (commandWord s) = .ok i)
      (h : exec i { s with draw := d } = .next u) : EventStep s (.sequencer d r) (clearCounters r u)
  | illegal (d : Draw) (r : Strobes) (e : DecodeError) (hb : s.busy = true) (hi : decode (commandWord s) = .error e)
      (hp : s.ph = .check) : EventStep s (.sequencer d r) (clearCounters r (raise .bounds { s with draw := d }))
  | illegalLate (d : Draw) (r : Strobes) (e : DecodeError) (hb : s.busy = true)
      (hi : decode (commandWord s) = .error e) (hp : s.ph ≠ .check) :
      EventStep s (.sequencer d r) (clearCounters r { s with draw := d })
  | noCommand (d : Draw) (r : Strobes) (hb : s.busy = false) : EventStep s (.sequencer d r) (clearCounters r s)
  | resets : EventStep s .reset (resetBlock s)

theorem whenIdle_next {r : Reg} {t s u : State} (h : whenIdle r t s = .next u) : s.busy = false ∧ u = t := by
  unfold whenIdle at h
  split at h
  · cases h
  · injection h with h; exact ⟨by simpa using ‹¬ s.busy = true›, h.symm⟩

theorem writeRegister_step {r : Reg} {v : BitVec 64} {s t : State} (h : writeRegister r v s = .next t) :
    EventStep s (.host (.write r v)) t := by
  unfold writeRegister at h
  split at h <;>
    first
    | (obtain ⟨hb, rfl⟩ := whenIdle_next h; exact .writesOperand _ _ hb _ rfl)
    | (injection h with h; subst h; first | exact .writesCfg _ | exact .writesNothing _ _)

theorem sequencerStep_step {d : Draw} {r : Strobes} {s t : State} (h : sequencerStep d r s = .next t) :
    EventStep s (.sequencer d r) t := by
  unfold sequencerStep at h
  by_cases hb : s.busy = true
  · rw [if_pos hb] at h
    obtain ⟨u, hu, rfl⟩ := onNext_next h
    cases hi : decode (commandWord s) with
    | ok i => exact .command d r i u hb hi ((runCommand_ok (s := { s with draw := d }) hi).symm.trans hu)
    | error e =>
      rw [runCommand_error (s := { s with draw := d }) hi] at hu
      injection hu with hu
      subst hu
      by_cases hp : s.ph = .check
      · have : illegalCommand { s with draw := d } = raise .bounds { s with draw := d } := by
          simp [illegalCommand, hb, hp]
        rw [this]
        exact .illegal d r e hb hi hp
      · have : illegalCommand { s with draw := d } = { s with draw := d } := by simp [illegalCommand, hb, hp]
        rw [this]
        exact .illegalLate d r e hb hi hp
  · rw [if_neg hb] at h
    injection h with h
    subst h
    exact .noCommand d r (by simpa using hb)

theorem writeBuffer_step {sp : Space} {i : Nat} {b : Byte} {s t : State} (h : writeBuffer sp i b s = .next t) :
    EventStep s (.host (.writeBuffer sp i b)) t := by
  cases sp <;> simp only [writeBuffer, writeWData] at h <;> split at h
  · cases h
  · split at h
    · next hb hi => injection h with h; subst h; exact .writesWData i b (by simpa using hb) hi
    · cases h
  all_goals first
    | cases h; done
    | (injection h with h; subst h; exact .writesReadOnly ..)

/-- Everything an event can do. -/
theorem takeEvent_step {e : Event} {s t : State} (h : takeEvent e s = .next t) : EventStep s e t := by
  cases e with
  | host a =>
    cases a with
    | write r v =>
      simp only [takeEvent, hostStep] at h
      split at h
      · next hr =>
        subst hr
        unfold writeCtrl at h
        split at h
        · split at h
          · cases h
          · next hb =>
            have hb : s.busy = false := by simpa using hb
            rw [runCommand_idle (by exact hb)] at h
            injection h with h
            subst h
            exact .starts v _ hb
        · injection h with h; subst h; exact .strobes v _
      · exact writeRegister_step h
    | writeBuffer sp i b => exact writeBuffer_step h
    | read r => injection h with h; subst h; exact .reads _ _
    | readBuffer sp i =>
      simp only [takeEvent, hostStep, readBuffer] at h
      split at h
      · injection h with h; subst h; exact .reads _ _
      · cases h
  | line a => injection h with h; subst h; exact .line a
  | time n => injection h with h; subst h; exact .time n
  | sequencer d r => exact sequencerStep_step h
  | reset => injection h with h; subst h; exact .resets

/-- Everything a step can do: the pending event's. -/
theorem step_event {s t : State} (h : step s = .next t) : EventStep (afterEvent s) (pendingEvent s) t := takeEvent_step h

/-- The line settings of a value of CFG are missing exactly for the reserved PARITY. -/
theorem transportConfig_isSome (c : Byte) : (transportConfig c).isSome = true ↔ parityField c ≠ 3 := by
  revert c; decide

/-- CFG names 5 to 8 data bits. -/
theorem dataBits_bounds (c : Byte) : 5 ≤ dataBits c ∧ dataBits c ≤ 8 := by revert c; decide

/-- A delivered byte joins the queue exactly below the queue's depth. -/
theorem rxqHasRoom_iff (n : Nat) : rxqHasRoom n = true ↔ n < Config.rxqDepth := by
  have h : Config.rxqMinDepth ≤ Config.rxqDepth := Nat.le_add_right ..
  simp only [rxqHasRoom, Bool.or_eq_true, decide_eq_true_eq]
  omega

end Sys2Proof.Machine
end

