-- ==== Sys2Proof/Laws/Invariant.lean ====
section
/-! SUPPORT. The invariant and the updates every phase is made of: it reads only some of the fields, and START, an error,
the line, reset and a write of CFG keep it. -/

namespace Sys2Proof.Machine

theorem buffers_congr {s t : State} (h : ∀ sp, Memory.wf (spaceSize sp) (s.buffer sp) = true) (a : t.wdata = s.wdata)
    (b : t.rdata = s.rdata) (c : t.req = s.req) (d : t.rep = s.rep) :
    ∀ sp, Memory.wf (spaceSize sp) (t.buffer sp) = true := by
  intro sp
  have := h sp
  cases sp <;> simp only [State.buffer, a, b, c, d] at * <;> exact this

theorem readRange_of_buffer {sp : Space} {off n : Nat} {s t : State} (h : t.buffer sp = s.buffer sp)
    (hr : t.resets = s.resets) : readRange sp off n t = readRange sp off n s :=
  readRange_congr fun k _ => by simp [readByte, h, hr]

/-- The fields the invariant does not read: a state that differs only in them, the command word and CFG kept, meets it
too. -/
theorem blockInv_congr {s t : State} (h : BlockInv s) (hw : commandWord t = commandWord s) (hc : t.cfg = s.cfg)
    (e : t = { s with op := t.op, slave := t.slave, maddr := t.maddr, count := t.count, value := t.value,
                      timeoutMs := t.timeoutMs, cfg := t.cfg, rxCount := t.rxCount, txCount := t.txCount,
                      crcOut := t.crcOut, crcAcc := t.crcAcc, cfgAct := t.cfgAct, ts := t.ts, t0 := t.t0, dl := t.dl,
                      now := t.now, draw := t.draw, agenda := t.agenda, draws := t.draws, moves := t.moves,
                      wire := t.wire, hostSaw := t.hostSaw }) : BlockInv t := by
  have e2 : t = { s with op := t.op, slave := t.slave, maddr := t.maddr, count := t.count, value := t.value,
                         timeoutMs := t.timeoutMs, cfg := s.cfg, rxCount := t.rxCount, txCount := t.txCount,
                         crcOut := t.crcOut, crcAcc := t.crcAcc, cfgAct := t.cfgAct, ts := t.ts, t0 := t.t0, dl := t.dl,
                         now := t.now, draw := t.draw, agenda := t.agenda, draws := t.draws, moves := t.moves,
                         wire := t.wire, hostSaw := t.hostSaw } := by rw [← hc]; exact e
  have hr : ∀ sp k, readByte sp k t = readByte sp k s := by
    intro sp k
    rw [e2]
    cases sp <;> rfl
  constructor
  case command =>
    have := h.command
    rw [hw, show t.ph = s.ph by rw [e2]]
    exact this
  case request =>
    rw [hw, show t.ph = s.ph by rw [e2]]
    intro h1 i p h2 h3
    obtain ⟨data, a, b, c⟩ := h.request h1 i p h2 h3
    refine ⟨data, ?_, ?_, ?_⟩
    · rw [← a]; exact readRange_congr fun k _ => hr ..
    · rw [show t.reqLen = s.reqLen by rw [e2], ← b]; exact readRange_congr fun k _ => hr ..
    · rw [show t.repLen = s.repLen by rw [e2], c]
  case buffers => rw [e2]; exact buffers_congr h.buffers rfl rfl rfl rfl
  case parity => rw [e2]; exact h.parity
  case busyPhase => rw [e2]; exact h.busyPhase
  case notBoth => rw [e2]; exact h.notBoth
  case queues => rw [e2]; exact h.queues
  case rxqBound => rw [e2]; exact h.rxqBound
  case quiet => rw [e2]; exact h.quiet
  case excCode => rw [e2]; exact h.excCode
  case noResult => rw [e2]; exact h.noResult
  case lengths => rw [e2]; exact h.lengths
  case portOpen => rw [e2]; exact h.portOpen
  case initClosed => rw [e2]; exact h.initClosed
  case stamped => rw [e2]; exact h.stamped
  case unread => rw [e2]; exact h.unread
  case received => rw [e2]; exact h.received
  case replyHeld => rw [e2]; exact h.replyHeld

theorem blockInv_resetBlock (s : State) : BlockInv (resetBlock s) := by
  constructor <;> simp [resetBlock, State.reset, pastCheck, pastBuild, needsPort, pastWrite, beforeRead]
  case buffers => intro sp; cases sp <;> rfl
  case parity => decide

theorem blockInv_start {s : State} (h : BlockInv s) : BlockInv (start s) := by
  constructor <;> try simp [pastCheck, pastBuild, needsPort, pastWrite, beforeRead]
  case buffers => exact buffers_congr h.buffers rfl rfl rfl rfl
  case parity => exact h.parity
  case queues => exact h.queues
  case rxqBound => exact h.rxqBound

/-- An error keeps the invariant, no result having been offered yet. -/
theorem blockInv_raise {s : State} (h : BlockInv s) (hr : s.resLen = 0) (k : ErrorKind) : BlockInv (raise k s) := by
  constructor <;> try simp [pastCheck, pastBuild, needsPort, pastWrite, beforeRead, hr]
  case buffers => exact buffers_congr h.buffers rfl rfl rfl rfl
  case parity => exact h.parity
  case queues =>
    by_cases hk : k.invalidates = true
    · simp [hk]
    · simp [hk]; exact h.queues
  case rxqBound => split <;> simp [h.rxqBound]
  case excCode => exact h.excCode
  case lengths => exact ⟨h.lengths.1, h.lengths.2.1, h.lengths.2.2.1⟩
  case replyHeld => exact h.replyHeld

/-- The request held in REQ does not depend on the other registers. -/
theorem holdsRequest_congr {p : Plan} {s t : State} (h : holdsRequest p s) (a : t.wdata = s.wdata) (b : t.req = s.req)
    (c : t.reqLen = s.reqLen) (d : t.repLen = s.repLen) (e : t.resets = s.resets) : holdsRequest p t := by
  obtain ⟨data, h1, h2, h3⟩ := h
  refine ⟨data, ?_, ?_, by rw [d, h3]⟩
  · rw [readRange_of_buffer (sp := .wdata) (t := t) (s := s) a e, h1]
  · rw [c, readRange_of_buffer (sp := .req) (t := t) (s := s) b e, h2]

/-- The line's moves keep the invariant. -/
theorem blockInv_lineStep {s : State} (h : BlockInv s) (a : LineAction) : BlockInv (lineStep a s) := by
  have key : ∀ rxq txq wire, s.xport = .opened → rxq.length ≤ Config.rxqDepth →
      BlockInv { s with rxq := rxq, txq := txq, wire := wire } := by
    intro rxq txq wire ho hl
    constructor
    case buffers => exact buffers_congr h.buffers rfl rfl rfl rfl
    case queues => exact fun hx => absurd ho hx
    case rxqBound => exact hl
    case parity => exact h.parity
    case busyPhase => exact h.busyPhase
    case notBoth => exact h.notBoth
    case quiet => exact h.quiet
    case excCode => exact h.excCode
    case noResult => exact h.noResult
    case lengths => exact h.lengths
    case portOpen => exact h.portOpen
    case initClosed => exact h.initClosed
    case stamped => exact h.stamped
    case unread => exact h.unread
    case received => exact h.received
    case replyHeld => exact h.replyHeld
    case command => exact h.command
    case request => exact fun h1 i p h2 h3 => holdsRequest_congr (h.request h1 i p h2 h3) rfl rfl rfl rfl rfl
  cases a with
  | deliver d =>
    simp only [lineStep, deliver]
    split
    · next ho =>
      split
      · next hr => exact key _ _ _ ho (by rw [rxqHasRoom_iff] at hr; simp; omega)
      · exact key _ _ _ ho h.rxqBound
    · exact h
  | transmit =>
    simp only [lineStep, transmit]
    split
    · next ho =>
      split
      · exact key _ _ _ ho h.rxqBound
      · exact h
    · exact h

/-- The plan of the running command fits, once CHECK has let it pass. -/
theorem planFits_of_blockInv {s : State} (h : BlockInv s) {i : Instr} {p : Plan} (hd : decode (commandWord s) = .ok i)
    (hp : planOf i = some p) (hc : pastCheck s.ph = true) : PlanFits p ∧ p.emptyWrite = false := by
  obtain ⟨j, h1, h2, _⟩ := h.command hc
  rw [hd] at h1
  injection h1 with h1
  subst h1
  simp only [accepted, Bool.and_eq_true, Bool.not_eq_eq_eq_not, Bool.not_true] at h2
  refine ⟨planFits hp h2.1, ?_⟩
  have := h2.2
  simpa [emptyWrite, hp] using this

end Sys2Proof.Machine
end

