-- ==== Sys2Proof/Laws/PerInstr.lean ====
section
/-! SUPPORT. What is said of every instruction as syntax, one lemma per constructor: its command word is twelve bytes
that begin with its OP value, and OP is the function code of its request (30_encoding R94). -/

namespace Sys2Proof.Laws.CommandWord

open Sys2Proof.Machine

/-- The shape of the command word of `i`, and its function code. -/
def Statement (i : Instr) : Prop :=
  (encode i).length = 12 ∧ (encode i).head? = some i.opcode ∧ ∀ p, planOf i = some p → p.fcode = i.opcode

theorem rdCoils (a : Byte) (m n : Word) (t : BitVec 32) : Statement (.rdCoils a m n t) :=
  ⟨rfl, rfl, fun _ h => by cases h; rfl⟩

theorem rdRegisters (a : Byte) (m n : Word) (t : BitVec 32) : Statement (.rdRegisters a m n t) :=
  ⟨rfl, rfl, fun _ h => by cases h; rfl⟩

theorem wrCoil (a : Byte) (m v : Word) (t : BitVec 32) : Statement (.wrCoil a m v t) :=
  ⟨rfl, rfl, fun _ h => by cases h; rfl⟩

theorem wrRegister (a : Byte) (m v : Word) (t : BitVec 32) : Statement (.wrRegister a m v t) :=
  ⟨rfl, rfl, fun _ h => by cases h; rfl⟩

theorem wrRegisters (a : Byte) (m n : Word) (t : BitVec 32) : Statement (.wrRegisters a m n t) :=
  ⟨rfl, rfl, fun _ h => by cases h; rfl⟩

theorem rdBytes (a : Byte) (m n : Word) (t : BitVec 32) : Statement (.rdBytes a m n t) :=
  ⟨rfl, rfl, fun _ h => by cases h; rfl⟩

theorem wrBytes (a : Byte) (m n : Word) (t : BitVec 32) : Statement (.wrBytes a m n t) :=
  ⟨rfl, rfl, fun _ h => by cases h; rfl⟩

theorem crcCompute (n : Word) : Statement (.crcCompute n) := ⟨rfl, rfl, fun _ h => by cases h⟩

theorem crcValidate (n : Word) : Statement (.crcValidate n) := ⟨rfl, rfl, fun _ h => by cases h⟩

end Sys2Proof.Laws.CommandWord
end

