-- ==== Sys2Proof/Laws/Runs.lean ====
section
/-! SUPPORT. Runs of several steps: cutting them, and the step that the head of the agenda decides. -/

namespace Sys2Proof.Machine

theorem run_succ {s u : State} (h : step s = .next u) (k : Nat) :
    Host.Core.run Sys2Proof.core (k + 1) s = Host.Core.run Sys2Proof.core k u := by
  simp only [Host.Core.run]
  rw [show Sys2Proof.core.step s = .next u from h]

theorem run_add {s u : State} {a : Nat} (h : Host.Core.run Sys2Proof.core a s = .next u) (b : Nat) :
    Host.Core.run Sys2Proof.core (a + b) s = Host.Core.run Sys2Proof.core b u := by
  induction a generalizing s with
  | zero =>
    simp only [Host.Core.run] at h
    injection h with h
    subst h
    simp
  | succ a ih =>
    cases hs : step s with
    | next v =>
      rw [run_succ hs] at h
      rw [Nat.add_right_comm, run_succ hs]
      exact ih h
    | fault r =>
      simp only [Host.Core.run] at h
      rw [show Sys2Proof.core.step s = .fault r from hs] at h
      cases h
    | refused r =>
      simp only [Host.Core.run] at h
      rw [show Sys2Proof.core.step s = .refused r from hs] at h
      cases h

/-- A step is the event at the head of the agenda. -/
theorem step_of_agenda {s : State} {e : Event} {rest : List Event} (ha : s.agenda = e :: rest) (hr : isRead e = false) :
    step s = takeEvent e { s with agenda := rest, moves := s.moves + 1 } := by
  have : afterEvent s = { s with agenda := rest, moves := s.moves + 1 } := by simp [afterEvent, pendingEvent, ha, hr]
  simp only [step, pendingEvent, ha, this]

end Sys2Proof.Machine
end

