-- ==== Sys2Proof/Tests/Slice0.lean ====
section
/-! SUPPORT. The model's own tests: the refusals of WellFormed, the words of the decoder, one step of each command against
95_test_vectors, and for every obligation with hypotheses states and operands that meet them (`witness_…`). Every expected
value is the spec's: the vector or rule is named at the test. -/

open Sys2Proof Sys2Proof.Machine Sys2Proof.Claims

namespace Sys2Proof.Tests

set_option maxRecDepth 20000

/-! ## WellFormed refuses what 30_encoding R94 and R121 put out of range -/

theorem test_slave_zero_is_ill_formed : (Instr.wrRegister 0 0x0010 0x1234 50).slaveOk = false ∧
    (Instr.wrRegister 0 0x0010 0x1234 50).wellFormed = false := by decide

theorem test_count_out_of_range_is_ill_formed :
    [Instr.rdCoils 1 0 0 50, .rdCoils 1 0 2001 50, .rdRegisters 1 0 0 50, .rdRegisters 1 0 126 50, .wrRegisters 1 0 124 50,
     .rdBytes 1 0 0 50, .rdBytes 1 0 250 50, .wrBytes 1 0 250 50, .crcCompute 257, .crcValidate 257].map Instr.countOk =
    List.replicate 10 false := by decide

theorem test_the_bounds_themselves_are_well_formed :
    [Instr.rdCoils 1 0 1 50, .rdCoils 255 0 2000 50, .rdRegisters 1 0 125 50, .wrCoil 1 0 0xFFFF 50, .wrRegister 255 0 0 50,
     .wrRegisters 1 0 0 50, .wrRegisters 1 0 123 50, .rdBytes 1 0 249 50, .wrBytes 1 0 249 50, .crcCompute 0,
     .crcValidate 256].map Instr.wellFormed = List.replicate 11 true := by decide

/-! ## Decoding: command words written out from 30_encoding R94 (OP, SLAVE, MADDR, COUNT, VALUE, TIMEOUT_MS; the byte order
is log 1), the calls those of 95_test_vectors 2.2 -/

/-- V-F5, timeout 500 = 0x01F4. -/
theorem test_decode_rdCoils : decode [0x01, 0x11, 0x00, 0x00, 0x00, 0x0A, 0x00, 0x00, 0x00, 0x00, 0x01, 0xF4] =
    .ok (.rdCoils 17 0 10 500) := by decide

/-- V-F7. -/
theorem test_decode_rdRegisters : decode [0x03, 0x01, 0x00, 0x6B, 0x00, 0x7D, 0x00, 0x00, 0x00, 0x00, 0x00, 0x32] =
    .ok (.rdRegisters 1 0x006B 125 50) := by decide

/-- V-F8. COUNT is not read. -/
theorem test_decode_wrCoil : decode [0x05, 0x01, 0x00, 0xAC, 0xFF, 0xFF, 0x00, 0x01, 0x00, 0x00, 0x00, 0x32] =
    .ok (.wrCoil 1 0x00AC 1 50) := by decide

/-- V-F11. -/
theorem test_decode_wrRegister : decode [0x06, 0x01, 0x00, 0x10, 0x00, 0x00, 0x12, 0x34, 0x12, 0x34, 0x56, 0x78] =
    .ok (.wrRegister 1 0x0010 0x1234 0x12345678) := by decide

/-- V-F14. VALUE is not read. -/
theorem test_decode_wrRegisters : decode [0x10, 0x01, 0x00, 0x01, 0x00, 0x02, 0xFF, 0xFF, 0x00, 0x00, 0x00, 0x32] =
    .ok (.wrRegisters 1 1 2 50) := by decide

/-- V-F17. -/
theorem test_decode_rdBytes : decode [0x41, 0x02, 0x01, 0x00, 0x00, 0x03, 0x00, 0x00, 0x00, 0x00, 0x00, 0x32] =
    .ok (.rdBytes 2 0x0100 3 50) := by decide

/-- V-F20. -/
theorem test_decode_wrBytes : decode [0x42, 0x02, 0x01, 0x00, 0x00, 0x03, 0x00, 0x00, 0x00, 0x00, 0x00, 0x32] =
    .ok (.wrBytes 2 0x0100 3 50) := by decide

/-- V-B14. SLAVE is not read. -/
theorem test_decode_crcCompute : decode [0xF0, 0x00, 0x00, 0x00, 0x01, 0x00, 0x00, 0x00, 0x00, 0x00, 0x00, 0x00] =
    .ok (.crcCompute 256) := by decide

/-- 43_operations R249. -/
theorem test_decode_crcValidate : decode [0xF1, 0x07, 0x00, 0x00, 0x00, 0x08, 0x00, 0x00, 0x00, 0x00, 0x00, 0x00] =
    .ok (.crcValidate 8) := by decide

/-- V-B13: OP values that name no command; a word of another length. -/
theorem test_decode_refuses : [0x02, 0x00, 0x0F, 0x43, 0xFF].map (fun op : Byte => decode (op :: List.replicate 11 0)) =
    [.error (.illegalOp 0x02), .error (.illegalOp 0x00), .error (.illegalOp 0x0F), .error (.illegalOp 0x43),
     .error (.illegalOp 0xFF)] ∧ decode [0x01] = .error (.badLength 1) := by decide

/-- opcode_table.json: the nine rows. -/
theorem test_table_rows : [0x01, 0x03, 0x05, 0x06, 0x10, 0x41, 0x42, 0xF0, 0xF1].map (decodeTableWord 8) =
    [some (.rdCoils 0 0 0 0), some (.rdRegisters 0 0 0 0), some (.wrCoil 0 0 0 0), some (.wrRegister 0 0 0 0),
     some (.wrRegisters 0 0 0 0), some (.rdBytes 0 0 0 0), some (.wrBytes 0 0 0 0), some (.crcCompute 0),
     some (.crcValidate 0)] := by decide

/-! ## The helpers of the step tests -/

/-- The outcome is a next state with this property. -/
def gives (o : Host.Outcome State Fault Refusal) (p : State → Bool) : Bool :=
  match o with
  | .next s => p s
  | .fault _ => false
  | .refused _ => false

/-- A buffer that holds these bytes from index 0. -/
def holding (bs : List Byte) : Memory := bs.mapIdx fun k b => (k, b)

/-- A command runs in phase `p`, the transport is open, the registers are V-F11's, TS is 10000, NOW is 20000. -/
def inPhase (p : Phase) : State :=
  { State.reset with op := 0x06, slave := 1, maddr := 0x0010, value := 0x1234, timeoutMs := 50, xport := .opened,
                     cfgAct := 0x74, tsValid := true, ts := 10000, now := 20000, busy := true, ph := p }

/-- As `inPhase`, with this request in REQ, this reply in REP and these lengths. -/
def exchanged (p : Phase) (request reply : List Byte) (repLen : Nat) : State :=
  { inPhase p with req := holding request, reqLen := BitVec.ofNat 9 request.length, rep := holding reply,
                   rxn := BitVec.ofNat 9 reply.length, repLen := BitVec.ofNat 9 repLen }

/-- The request of V-F11. -/
def requestF11 : List Byte := [0x01, 0x06, 0x00, 0x10, 0x12, 0x34, 0x85, 0x78]

/-- BUILD of `i` over these data leaves this frame and these lengths. -/
def buildsFrame (i : Instr) (data frame : List Byte) (repLen : Nat) : Bool :=
  gives (exec i { inPhase .build with wdata := holding data }) fun t =>
    decide (readRange .req 0 frame.length t = some frame) && decide (t.reqLen.toNat = frame.length) &&
      decide (t.repLen.toNat = repLen) && decide (t.ph = .gapw)

/-- EXTRACT of `i` from this reply leaves this result. -/
def extractsResult (i : Instr) (reply result : List Byte) : Bool :=
  gives (exec i (exchanged .extract [] reply reply.length)) fun t =>
    decide (readRange .rdata 0 result.length t = some result) && decide (t.resLen.toNat = result.length) &&
      decide (statusWord t = 0x282)

/-! ## Each command, one step at a time (95_test_vectors 2.2, 2.3) -/

/-- V-F5. -/
theorem test_rdCoils_request :
    buildsFrame (.rdCoils 17 0 10 50) [] [0x11, 0x01, 0x00, 0x00, 0x00, 0x0A, 0xBE, 0x9D] 7 = true := by decide

/-- V-S4. -/
theorem test_rdCoils_result : extractsResult (.rdCoils 17 0 10 50) [0x11, 0x01, 0x02, 0xB2, 0x00, 0x0C, 0x9F]
    [0, 1, 0, 0, 1, 1, 0, 1, 0, 0] = true := by decide

/-- V-F7. -/
theorem test_rdRegisters_request :
    buildsFrame (.rdRegisters 1 0x006B 125 50) [] [0x01, 0x03, 0x00, 0x6B, 0x00, 0x7D, 0xF4, 0x37] 255 = true := by decide

/-- V-S2. -/
theorem test_rdRegisters_result : extractsResult (.rdRegisters 1 0 2 50)
    [0x01, 0x03, 0x04, 0x12, 0x34, 0xAB, 0xCD, 0x00, 0x20] [0x12, 0x34, 0xAB, 0xCD] = true := by decide

/-- V-F8: VALUE = 1 sends 0xFF00. -/
theorem test_wrCoil_request :
    buildsFrame (.wrCoil 1 0x00AC 1 50) [] [0x01, 0x05, 0x00, 0xAC, 0xFF, 0x00, 0x4C, 0x1B] 8 = true := by decide

/-- V-F9. -/
theorem test_wrCoil_request_off :
    buildsFrame (.wrCoil 1 0x00AC 0 50) [] [0x01, 0x05, 0x00, 0xAC, 0x00, 0x00, 0x0D, 0xEB] 8 = true := by decide

/-- V-F12. -/
theorem test_wrRegister_request :
    buildsFrame (.wrRegister 255 0xFFFF 0xFFFF 50) [] [0xFF, 0x06, 0xFF, 0xFF, 0xFF, 0xFF, 0x9D, 0x80] 8 = true := by decide

/-- V-E2: a reply that differs from the request in byte 5 is a ReplyError, the transport stays open. -/
theorem test_wrRegister_echo : gives (exec (.wrRegister 1 0x0010 0x1234 50)
    (exchanged .vid requestF11 [0x01, 0x06, 0x00, 0x10, 0x12, 0x35, 0x44, 0xB8] 8))
    (fun t => decide (t.err = some .reply) && decide (t.xport = .opened) && !t.exc && !t.busy) = true := by decide

/-- V-F14. -/
theorem test_wrRegisters_request : buildsFrame (.wrRegisters 1 1 2 50) [0x00, 0x0A, 0x01, 0x02]
    [0x01, 0x10, 0x00, 0x01, 0x00, 0x02, 0x04, 0x00, 0x0A, 0x01, 0x02, 0x92, 0x30] 8 = true := by decide

/-- V-S6: the first six bytes decide. -/
theorem test_wrRegisters_echo : gives (exec (.wrRegisters 1 1 2 50)
    (exchanged .vid [0x01, 0x10, 0x00, 0x01, 0x00, 0x02, 0x04, 0x00, 0x0A, 0x01, 0x02, 0x92, 0x30]
      [0x01, 0x10, 0x00, 0x01, 0x00, 0x02, 0x10, 0x08] 8)) (fun t => decide (t.ph = .extract)) = true := by decide

/-- V-F17. -/
theorem test_rdBytes_request :
    buildsFrame (.rdBytes 2 0x0100 3 50) [] [0x02, 0x41, 0x01, 0x00, 0x03, 0x58, 0x3D] 10 = true := by decide

/-- V-S7. -/
theorem test_rdBytes_result : extractsResult (.rdBytes 2 0x0100 3 50)
    [0x02, 0x41, 0x01, 0x00, 0x03, 0xDE, 0xAD, 0xBE, 0x0D, 0x99] [0xDE, 0xAD, 0xBE] = true := by decide

/-- V-F20. -/
theorem test_wrBytes_request : buildsFrame (.wrBytes 2 0x0100 3 50) [0xDE, 0xAD, 0xBE]
    [0x02, 0x42, 0x01, 0x00, 0x03, 0xDE, 0xAD, 0xBE, 0x3E, 0x99] 10 = true := by decide

/-- V-S8 against a reply that differs in the last data byte only, byte 7 (R223: wrBytes compares 5 + COUNT bytes). -/
theorem test_wrBytes_echo : gives (exec (.wrBytes 2 0x0100 3 50)
    (exchanged .vid [0x02, 0x42, 0x01, 0x00, 0x03, 0xDE, 0xAD, 0xBE, 0x3E, 0x99]
      [0x02, 0x42, 0x01, 0x00, 0x03, 0xDE, 0xAD, 0xBF, 0x3E, 0x99] 10))
    (fun t => decide (t.err = some .reply)) = true := by decide

/-- V-C9. -/
theorem test_crcCompute : gives (exec (.crcCompute 9)
    { inPhase .crcop with wdata := holding [0x31, 0x32, 0x33, 0x34, 0x35, 0x36, 0x37, 0x38, 0x39] })
    (fun t => decide (t.crcOut = 0x4B37) && decide (t.err = none) && t.done) = true := by decide

/-- V-C1: the empty sequence. -/
theorem test_crcCompute_empty : gives (exec (.crcCompute 0) { inPhase .crcop with crcOut := 0 })
    (fun t => decide (t.crcOut = 0xFFFF)) = true := by decide

/-- V-C10. -/
theorem test_crcValidate : gives (exec (.crcValidate 8)
    { inPhase .crcop with wdata := holding [0x01, 0x03, 0x00, 0x00, 0x00, 0x0A, 0xC5, 0xCD] })
    (fun t => decide (t.crcOut = 0xCDC5) && decide (t.err = none)) = true := by decide

/-- V-C14: the CRC bytes exchanged. -/
theorem test_crcValidate_fails : gives (exec (.crcValidate 8)
    { inPhase .crcop with wdata := holding [0x01, 0x03, 0x00, 0x00, 0x00, 0x0A, 0xCD, 0xC5] })
    (fun t => decide (t.crcOut = 0xCDC5) && decide (t.err = some .crc)) = true := by decide

/-! ## The phases and the agents (95_test_vectors 2.4 to 2.7) -/

/-- V-E7: an exception frame. -/
theorem test_exception_frame : gives (exec (.rdRegisters 1 0 2 50)
    (exchanged .vid [0x01, 0x03, 0x00, 0x00, 0x00, 0x02, 0xC4, 0x0B] [0x01, 0x83, 0x02, 0xC0, 0xF1] 9))
    (fun t => decide (statusWord t = 0x2DE) && decide (t.excCode = 2)) = true := by decide

/-- V-E5: a short prefix with a wrong CRC. -/
theorem test_short_reply : gives (exec (.wrRegister 17 1 0x00FF 50)
    (exchanged .vcrc [] [0x11, 0x06, 0x00, 0x01, 0x00] 8))
    (fun t => decide (t.err = some .crc) && decide (t.crcOut = 0x6522)) = true := by decide

/-- V-E12: five bytes accepted. -/
theorem test_short_write : gives (exec (.wrRegister 17 1 0x00FF 50)
    { exchanged .write [0x11, 0x06, 0x00, 0x01, 0x00, 0xFF, 0x9A, 0xDA] [] 8 with draw := { accepts := 5 } })
    (fun t => decide (t.txq = [0x11, 0x06, 0x00, 0x01, 0x00]) && decide (t.txCount = 5) && decide (t.ts = 20000) &&
      decide (t.err = some .request)) = true := by decide

/-- V-E14: a fault of DRAIN. -/
theorem test_drain_fault : gives (exec (.wrRegister 17 1 0x00FF 50)
    { inPhase .drain with txq := [0x9A, 0xDA], draw := { fault := true } })
    (fun t => decide (statusWord t = 0x306) && decide (t.txq = []) && decide (t.ts = 10000)) = true := by decide

/-- V-T2 to V-T7, in the order of the table. -/
theorem test_gap : [10010, 12999, 13000, 10000, 9999, 10001, 1000000000000].map (fun n =>
    gives (exec (.wrRegister 17 1 0x00FF 50) { inPhase .gapw with now := n })
      (fun t => decide (t.ph = .write)) ) = [false, false, true, false, false, false, true] ∧
    [10010, 12999, 13000, 10000, 9999, 10001, 1000000000000].map (fun n =>
    gives (exec (.wrRegister 17 1 0x00FF 50) { inPhase .gapw with now := n })
      (fun t => decide (t.err = some .timing)) ) = [false, false, false, true, true, false, false] := by decide

/-- V-B12: the slave check comes before the empty write. V-B7, V-B8: the empty write, and one register too many. -/
theorem test_check_order : [Instr.wrRegisters 0 0 0 50, .wrRegisters 1 0 0 50, .wrRegisters 1 0 124 50].map (fun i =>
    gives (exec i (inPhase .check)) (fun t => decide (t.err = some .bounds))) = [true, false, true] := by decide

/-- V-R1. -/
theorem test_reset_status : statusWord State.reset = 0 ∧ State.reset.cfg = 0x74 ∧ State.reset.crcOut = 0xFFFF := by decide

/-- V-R8, V-R9. -/
theorem test_cfg_write : mergeCfg 0x74 0x6C = 0x6C ∧ mergeCfg 0x74 0x7C = 0x74 := by decide

/-- 00_scope R7, 10_state R35: the default settings; 115200 baud, odd parity, 5 data bits, 2 stop bits. -/
theorem test_cfg_settings : [0x74, 0x8F, 0x18].map transportConfig =
    [some ⟨19200, .even, 8, 1⟩, some ⟨115200, .odd, 5, 2⟩, none] := by decide

/-- 42_sequencer R190 from reset: the word of rdCoils placed, the next step starts it. -/
theorem test_fetch_word_starts :
    gives (step (State.reset.withFetchWord 8 0x01)) (fun t => t.busy && decide (t.ph = .check)) = true := by decide

/-! ## States that meet the invariant -/

/-- A transaction in VID whose reply differs from the request (V-E2). -/
def vidState : State := exchanged .vid requestF11 [0x01, 0x06, 0x00, 0x10, 0x12, 0x35, 0x44, 0xB8] 8

/-- A transaction about to hand its request over (V-F11), the sequencer's turn next. -/
def writeState : State := { exchanged .write requestF11 [] 8 with agenda := [turn] }

/-- A command to be checked, the transport closed, the sequencer's turn next. -/
def checkState : State := { inPhase .check with xport := .closed, agenda := [turn] }

/-- An idle block, its last command done, the host's START next. -/
def idleState : State := { inPhase .idle with busy := false, done := true, agenda := [.host (.write .ctrl 1)] }

theorem decode_vid : decode (commandWord vidState) = .ok (.wrRegister 1 0x0010 0x1234 50) := by decide

theorem holds_f11 {s : State} (h : readRange .req 0 s.reqLen.toNat s = some requestF11) (hr : s.repLen.toNat = 8)
    (hd : decode (commandWord s) = .ok (.wrRegister 1 0x0010 0x1234 50)) (i : Instr) (p : Plan)
    (hi : decode (commandWord s) = .ok i) (hp : planOf i = some p) : holdsRequest p s := by
  rw [hd] at hi
  cases hi
  cases hp
  exact ⟨[], rfl, h, hr⟩

theorem bound_rxq {s : State} (h : s.rxq.length ≤ Config.rxqMinDepth) : s.rxq.length ≤ Config.rxqDepth :=
  Nat.le_trans h (Nat.le_add_right ..)

theorem vidState_inv : BlockInv vidState where
  buffers := by intro sp; cases sp <;> decide
  busyPhase := by decide
  notBoth := by decide
  parity := by decide
  queues := by decide
  rxqBound := bound_rxq (by decide)
  quiet := by decide
  excCode := by decide
  noResult := by decide
  lengths := by decide
  portOpen := by decide
  initClosed := by decide
  command _ := ⟨_, decode_vid, by decide, by decide⟩
  request _ := holds_f11 (by decide) (by decide) decode_vid
  stamped := by decide
  unread := by decide
  received := by decide
  replyHeld := by decide

theorem writeState_inv : BlockInv writeState where
  buffers := by intro sp; cases sp <;> decide
  busyPhase := by decide
  notBoth := by decide
  parity := by decide
  queues := by decide
  rxqBound := bound_rxq (by decide)
  quiet := by decide
  excCode := by decide
  noResult := by decide
  lengths := by decide
  portOpen := by decide
  initClosed := by decide
  command _ := ⟨_, decode_vid, by decide, by decide⟩
  request _ := holds_f11 (by decide) (by decide) decode_vid
  stamped := by decide
  unread := by decide
  received := by decide
  replyHeld := by decide

theorem checkState_inv : BlockInv checkState where
  buffers := by intro sp; cases sp <;> decide
  busyPhase := by decide
  notBoth := by decide
  parity := by decide
  queues := by decide
  rxqBound := bound_rxq (by decide)
  quiet := by decide
  excCode := by decide
  noResult := by decide
  lengths := by decide
  portOpen := by decide
  initClosed := by decide
  command h := absurd h (by decide)
  request h := absurd h (by decide)
  stamped := by decide
  unread := by decide
  received := by decide
  replyHeld := by decide

/-! ## Witnesses: states and operands that meet the hypotheses of each obligation -/

/-- The operation of V-F11. -/
abbrev f11 : Instr := .wrRegister 1 0x0010 0x1234 50

theorem modbus_f11 : modbus f11 := ⟨_, rfl⟩

theorem witness_EveryStepKeepsTheInvariant : BlockInv writeState ∧ ∃ t, step writeState = .next t :=
  ⟨writeState_inv, _, rfl⟩

theorem witness_NoCommandStepStops : BlockInv vidState ∧ decode (commandWord vidState) = .ok f11 :=
  ⟨vidState_inv, decode_vid⟩

/-- With data, and at the bound (V-F15 and V-F21 lengths); a coil. -/
theorem witness_RequestFrameDeterminesItsCommand :
    (planOf (.wrRegisters 1 0 123 0) = some (planWrRegisters 1 0 123) ∧ (Instr.wrRegisters 1 0 123 0).wellFormed = true ∧
      (List.replicate 246 (0 : Byte)).length = (planWrRegisters 1 0 123).dataLen) ∧
    (planOf (.wrCoil 1 0x00AC 0xFF00 0) = some (planWrCoil 1 0x00AC 0xFF00) ∧
      (Instr.wrCoil 1 0x00AC 0xFF00 0).wellFormed = true ∧ ([] : List Byte).length = (planWrCoil 1 0x00AC 0xFF00).dataLen ∧
      ∀ a m v t, Instr.wrCoil 1 0x00AC 0xFF00 0 = .wrCoil a m v t → v = 0x0000 ∨ v = 0xFF00) :=
  ⟨⟨rfl, by decide, by decide⟩, rfl, by decide, by decide, fun _ _ _ _ h => by cases h; exact .inr rfl⟩

theorem witness_StepRunsTheCommandTheRegistersHold :
    (decode (commandWord writeState) = .ok f11 ∧ writeState.agenda = .sequencer {} {} :: [] ∧ writeState.busy = true) ∧
    (decode (commandWord idleState) = .ok f11 ∧ idleState.agenda = .host (.write .ctrl 1) :: [] ∧
      (1 : BitVec 64).getLsbD 0 = true ∧ idleState.busy = false) :=
  ⟨⟨decode_vid, rfl, rfl⟩, decode_vid, rfl, rfl, rfl⟩

theorem witness_PhaseMovesOnlyAlongTheGraph :
    (BlockInv writeState ∧ ∃ t, step writeState = .next t) ∧
    (BlockInv vidState ∧ vidState.busy = true ∧ decode (commandWord vidState) = .ok f11 ∧
      ∃ t, exec f11 vidState = .next t) :=
  ⟨⟨writeState_inv, _, rfl⟩, vidState_inv, rfl, decode_vid, _, rfl⟩

/-- WRITE; DRAIN with an empty queue; READ at its deadline. -/
theorem witness_TimestampMovesInThreePhasesOnly :
    modbus f11 ∧ (∃ t, exec f11 writeState = .next t ∧ writeState.busy = true ∧ writeState.draw.fault = false ∧
      writeState.ph = .write) ∧
    (∃ t, exec f11 (inPhase .drain) = .next t ∧ (inPhase .drain).ph = .drain ∧ t.ph = .gapr) ∧
    (∃ t, exec f11 (inPhase .read) = .next t ∧ (inPhase .read).ph = .read ∧ t.ph ≠ .read) ∧
    (∃ t, step writeState = .next t) ∧ pendingEvent writeState ≠ .reset :=
  ⟨modbus_f11, ⟨_, rfl, rfl, rfl, rfl⟩, ⟨_, rfl, rfl, rfl⟩, ⟨_, rfl, rfl, by decide⟩, ⟨_, rfl⟩, by decide⟩

/-- Both gaps, at exactly TS + 3000 (V-T4). -/
theorem witness_NoWriteOrReadWithinTheGap :
    (∃ t, exec f11 { inPhase .gapw with now := 13000 } = .next t ∧ t.ph = .write) ∧
    (∃ t, exec f11 { inPhase .gapr with now := 13000 } = .next t ∧ t.ph = .read) := ⟨⟨_, rfl, rfl⟩, _, rfl, rfl⟩

/-- A step of each kind the statement names: nothing; INIT; a fault; reset. -/
theorem witness_TransportStateTransitions :
    (∃ t, step writeState = .next t ∧ t.xport = writeState.xport) ∧
    (∃ t, step { inPhase .init with xport := .closed, agenda := [turn] } = .next t ∧ t.xport = .opened) ∧
    (∃ t, step { inPhase .drain with agenda := [.sequencer { fault := true } {}] } = .next t ∧ t.xport = .closed) ∧
    (∃ t, step { inPhase .drain with agenda := [.reset] } = .next t ∧ t.xport = .uninitialized) :=
  ⟨⟨_, rfl, rfl⟩, ⟨_, rfl, rfl⟩, ⟨_, rfl, rfl⟩, _, rfl, rfl⟩

theorem witness_EachPhaseWritesOnlyItsOwnState : writeState.busy = true ∧ ∃ t, exec f11 writeState = .next t :=
  ⟨rfl, _, rfl⟩

theorem witness_CommandsLeaveOperandsAlone : ∃ t, exec f11 writeState = .next t := ⟨_, rfl⟩

theorem witness_EveryErrorEndsItsCommand : BlockInv vidState ∧ vidState.busy = true ∧
    decode (commandWord vidState) = .ok f11 ∧ ∃ t, exec f11 vidState = .next t ∧ t.err = some .reply :=
  ⟨vidState_inv, rfl, decode_vid, _, rfl, by decide⟩

/-- The host starts a command; the line delivers a byte. -/
theorem witness_IdleUntilTheHostStarts :
    (∃ t, step idleState = .next t) ∧ idleState.busy = false ∧ idleState.ph = .idle ∧ pendingEvent idleState ≠ .reset ∧
    (∃ t, step { idleState with agenda := [.line (.deliver 1)] } = .next t) :=
  ⟨⟨_, rfl⟩, rfl, rfl, by decide, _, rfl⟩

theorem witness_BuffersHaveOneWriterEach :
    (∃ t, step writeState = .next t) ∧ pendingEvent writeState ≠ .reset ∧
    (∃ t, step { idleState with agenda := [.host (.writeBuffer .wdata 255 1)] } = .next t ∧ t.wdata = [(255, 1)]) :=
  ⟨⟨_, rfl⟩, by decide, _, rfl, rfl⟩

/-- V-F11 answered by its echo (V-S5), and V-F5 by the fixture (V-S4): GAPW at TS + 3000, GAPR at the drain + 3000. -/
theorem witness_HealthyTransactionCompletes :
    (let s := { idleState with agenda := healthyAgenda 8 requestF11 13000 16000 }
     decode (commandWord s) = .ok f11 ∧ planOf f11 = some (planWrRegister 1 0x0010 0x1234) ∧ accepted f11 = true ∧
      readRange .wdata 0 0 s = some [] ∧ s.busy = false ∧ s.xport = .opened ∧ (s.tsValid = true → s.ts + 3000 ≤ 13000) ∧
      requestF11.length = 8 ∧ validate requestF11 = true ∧
      requestF11.take 6 = ((planWrRegister 1 0x0010 0x1234).request []).take 6 ∧
      s.agenda = healthyAgenda ((planWrRegister 1 0x0010 0x1234).request []).length requestF11 13000 16000 ++ []) ∧
    (let p := planRdCoils 17 0 10
     accepted (.rdCoils 17 0 10 50) = true ∧ p.echo = none ∧ p.replyLen = 7 ∧
      validate [0x11, 0x01, 0x02, 0xB2, 0x00, 0x0C, 0x9F] = true ∧
      ([0x11, 0x01, 0x02, 0xB2, 0x00, 0x0C, 0x9F] : List Byte).take 2 = [p.slave, p.fcode]) := by
  refine ⟨⟨by decide, rfl, by decide, rfl, rfl, rfl, by decide, rfl, by decide, by decide, ?_⟩, by decide⟩
  rw [List.append_nil]; rfl

theorem witness_StartBeginsEveryCommand : idleState.busy = false := rfl

theorem witness_CheckRunsItsSixTestsInOrder : Claims.running .check checkState := by decide

theorem witness_CountBoundsOfEveryOperation : Claims.running .check (inPhase .check) ∧ (1 : Byte) ≠ 0 := by decide

theorem witness_EmptyWritesCompleteAtOnce :
    Claims.running .check (inPhase .check) ∧ (1 : Byte) ≠ 0 ∧ (inPhase .check).resLen = 0 := by decide

theorem witness_SlaveZeroIsRefused : Claims.running .check (inPhase .check) ∧ modbus (.wrRegisters 0 0 0 50) ∧
    (Instr.wrRegisters 0 0 0 50).slaveField = 0 := ⟨by decide, ⟨_, rfl⟩, rfl⟩

/-- The values next to a legal OP (V-B13). -/
theorem witness_IllegalOpEndsInBoundsError :
    (∀ op ∈ [(0x00 : Byte), 0x02, 0x04, 0x07, 0x0F, 0x11, 0x40, 0x43, 0xEF, 0xF2],
      { idleState with op := op }.op ∉ [0x01, 0x03, 0x05, 0x06, 0x10, 0x41, 0x42, 0xF0, 0xF1]) ∧
    { idleState with op := 0x02 }.busy = false ∧ Claims.running .check { inPhase .check with op := 0x02 } := by decide

theorem witness_InitIsEnteredExactlyWithoutATransport :
    (∃ t, exec f11 checkState = .next t ∧ t.ph = .init) ∧ checkState.busy = true ∧ checkState.ph ≠ .init ∧
    (BlockInv checkState ∧ ∃ t, step checkState = .next t ∧ t.ph = .init) ∧
    (BlockInv writeState ∧ writeState.ph = .write) :=
  ⟨⟨_, rfl, rfl⟩, rfl, by decide, ⟨checkState_inv, _, rfl, rfl⟩, writeState_inv, rfl⟩

theorem witness_InitOpensOrInvalidates :
    modbus f11 ∧ ∀ a : OpenAnswer, Claims.running .init { inPhase .init with draw := { openAnswer := a } } ∧
      { inPhase .init with draw := { openAnswer := a } }.draw.openAnswer = a :=
  ⟨modbus_f11, fun _ => ⟨⟨rfl, rfl⟩, rfl⟩⟩

theorem witness_FlushEmptiesBothQueues :
    modbus f11 ∧ ∀ f : Bool, Claims.running .flush { inPhase .flush with draw := { fault := f } } ∧
      { inPhase .flush with draw := { fault := f } }.draw.fault = f := ⟨modbus_f11, fun _ => ⟨⟨rfl, rfl⟩, rfl⟩⟩

theorem witness_TransportFaultInvalidates :
    modbus f11 ∧ (∀ p ∈ [Phase.flush, .write, .drain, .read],
      { inPhase p with draw := { fault := true } }.busy = true ∧ { inPhase p with draw := { fault := true } }.ph = p ∧
      { inPhase p with draw := { fault := true } }.draw.fault = true) ∧
    (∀ a ∈ [OpenAnswer.fault, .mismatch], Claims.running .init { inPhase .init with draw := { openAnswer := a } }) :=
  ⟨modbus_f11, by decide, by decide⟩

/-- Every clause at the largest count (V-F4, V-F7, V-F15, V-F18, V-F21). -/
theorem witness_BuildOfEveryRequest : Claims.running .build (inPhase .build) ∧ (2000 : Word).toNat ≤ 2000 ∧
    (125 : Word).toNat ≤ 125 ∧ (249 : Word).toNat ≤ 249 ∧ (123 : Word).toNat ≤ 123 ∧
    (readRange .wdata 0 246 (inPhase .build)).isSome = true ∧ (readRange .wdata 0 249 (inPhase .build)).isSome = true := by
  decide

theorem witness_GapStepFourCases : modbus f11 ∧ (inPhase .gapw).busy = true ∧ (inPhase .gapw).ph = .gapw ∧
    (inPhase .gapr).busy = true ∧ (inPhase .gapr).ph = .gapr := ⟨modbus_f11, by decide⟩

/-- A fault; all bytes accepted; one byte too few. -/
theorem witness_WriteHandsOverTheFrame : modbus f11 ∧
    (Claims.running .write { writeState with draw := { fault := true } }) ∧
    (∀ k ∈ [7, 8], Claims.running .write { writeState with draw := { accepts := k } } ∧
      { writeState with draw := { accepts := k } }.draw.fault = false ∧
      (readRange .req 0 (min k 8) { writeState with draw := { accepts := k } }).isSome = true ∧
      writeState.reqLen.toNat = 8) := ⟨modbus_f11, by decide, by decide⟩

theorem witness_DrainWaitsForTheLine : modbus f11 ∧ Claims.running .drain (inPhase .drain) ∧
    (inPhase .drain).draw.fault = false ∧ { inPhase .drain with draw := { fault := true } }.draw.fault = true :=
  ⟨modbus_f11, by decide⟩

/-- READ with `n` of 8 reply bytes taken, these waiting, T0 = 7700 and DL = 50000 (95_test_vectors 2.6). -/
def reading (n : Nat) (waiting : List Byte) (now : Nat) (takes : Bool) : State :=
  { exchanged .read requestF11 (requestF11.take n) 8 with
    rxq := waiting, t0 := 7700, dl := 50000, now := now, draw := { takesByte := takes } }

/-- The last byte, just before the deadline, and at the deadline where the draw prefers the byte. -/
theorem witness_ReadTakesOneByte : modbus f11 ∧
    ∀ s ∈ [reading 7 [0x78] 57699 false, reading 7 [0x78] 57700 true], Claims.running .read s ∧ s.draw.fault = false ∧
      s.rxq = 0x78 :: [] ∧ s.rxn.toNat < s.repLen.toNat ∧ s.repLen.toNat ≤ 256 ∧
      (s.now < s.t0 + s.dl ∨ s.draw.takesByte = true) := ⟨modbus_f11, by decide⟩

/-- Full, with a byte left over; expired with nothing; expired with a byte the draw does not take. -/
theorem witness_ReadEndsFullOrExpired : modbus f11 ∧
    ∀ s ∈ [reading 8 [0xFF] 7700 true, reading 0 [] 57700 true, reading 3 [0x10] 57700 false],
      Claims.running .read s ∧ s.draw.fault = false ∧ (s.rxn = s.repLen ∨ s.t0 + s.dl ≤ s.now) ∧
      (s.rxq = [] ∨ s.repLen.toNat ≤ s.rxn.toNat ∨ s.draw.takesByte = false) := ⟨modbus_f11, by decide⟩

/-- Waiting just before the deadline; a TimeoutError at it. -/
theorem witness_TimeoutFloor :
    modbus f11 ∧
    (let s := reading 0 [] 57699 true
     Claims.running .read s ∧ s.draw.fault = false ∧ s.rxq = [] ∧ s.rxn ≠ s.repLen ∧ s.now < s.t0 + s.dl) ∧
    (let s := reading 0 [] 57700 true
     s.busy = true ∧ s.err = none ∧ s.repLen ≠ 0 ∧ ∃ t, exec f11 s = .next t ∧ t.err = some .timeout) :=
  ⟨modbus_f11, by decide, rfl, rfl, by decide, _, rfl, rfl⟩

theorem witness_DeadlineRaceAdmitsBothOrders : modbus f11 ∧
    (let s := reading 0 [0x01] 57700 true
     Claims.running .read s ∧ s.rxq = 0x01 :: [] ∧ s.rxn.toNat < s.repLen.toNat ∧ s.repLen.toNat ≤ 256 ∧
      s.t0 + s.dl ≤ s.now) := ⟨modbus_f11, by decide⟩

/-- Two bytes and three (V-E4, and the shortest frame, V-C16). -/
theorem witness_VcrcChecksTheReceivedPrefix : modbus f11 ∧
    ∀ f ∈ [[(0x11 : Byte), 0x06], [0x00, 0xBF, 0x40]], Claims.running .vcrc (exchanged .vcrc requestF11 f 8) ∧
      readRange .rep 0 (exchanged .vcrc requestF11 f 8).rxn.toNat (exchanged .vcrc requestF11 f 8) = some f :=
  ⟨modbus_f11, by decide⟩

/-- The four operations; wrBytes at its shortest and its longest; V-F11 with its echo, and with an exception frame. -/
theorem witness_WritesAreAcceptedByTheirEcho :
    Claims.running .vid vidState ∧ (readRange .rep 0 6 vidState).isSome = true ∧
    (readRange .req 0 6 vidState).isSome = true ∧ (readRange .rep 0 254 vidState).isSome = true ∧
    (readRange .req 0 254 vidState).isSome = true ∧
    (∃ a m n t, Instr.wrBytes 1 0 1 50 = .wrBytes a m n t ∧ n.toNat ≤ 249 ∧ 6 = 5 + n.toNat) ∧
    (∃ a m n t, Instr.wrBytes 1 0 249 50 = .wrBytes a m n t ∧ n.toNat ≤ 249 ∧ 254 = 5 + n.toNat) ∧
    exceptionReply (exchanged .vid requestF11 [0x01, 0x86, 0x02, 0xC3, 0xA1] 8) ∧ ¬ exceptionReply vidState :=
  ⟨by decide, by decide, by decide, by decide, by decide, ⟨_, _, _, _, rfl, by decide, by decide⟩,
    ⟨_, _, _, _, rfl, by decide, by decide⟩, by decide⟩

theorem witness_ReadsAreAcceptedByTheirIdentity : Claims.running .vid vidState ∧
    (∃ a m n t, Instr.rdCoils 17 0 10 50 = .rdCoils a m n t) ∧
    (∃ a m n t, Instr.rdRegisters 1 0 2 50 = .rdRegisters a m n t) ∧
    (∃ a m n t, Instr.rdBytes 2 0x0100 3 50 = .rdBytes a m n t) :=
  ⟨by decide, ⟨_, _, _, _, rfl⟩, ⟨_, _, _, _, rfl⟩, _, _, _, _, rfl⟩

/-- The smallest predetermined length (V-F1). -/
theorem witness_ExceptionFramesAreReported : modbus (.rdCoils 1 0 1 50) ∧
    let s := exchanged .vid [0x01, 0x01, 0x00, 0x00, 0x00, 0x01, 0xFD, 0xCA] [0x01, 0x81, 0x02, 0xC1, 0x91] 6
    Claims.running .vid s ∧ 6 ≤ s.repLen.toNat ∧ exceptionReply s := ⟨⟨_, rfl⟩, by decide⟩

theorem witness_ExtractOfCoils : Claims.running .extract (inPhase .extract) ∧ (2000 : Word).toNat ≤ 2000 ∧
    (0 : Word).toNat ≤ 2000 := by decide

theorem witness_ExtractOfRegisters : Claims.running .extract (inPhase .extract) ∧ (125 : Word).toNat ≤ 125 ∧
    0 < (125 : Word).toNat := by decide

theorem witness_ExtractOfBytesAndOfWrites : Claims.running .extract (inPhase .extract) ∧ (249 : Word).toNat ≤ 249 := by
  decide

/-- Nothing, two bytes, three bytes, all of WDATA. -/
theorem witness_CrcopComputesOrValidates : Claims.running .crcop (inPhase .crcop) ∧
    (∀ n ∈ [0, 2, 3, 256], (readRange .wdata 0 n (inPhase .crcop)).isSome = true) ∧ (2 : Word).toNat < 3 ∧
    3 ≤ (3 : Word).toNat := by decide

/-- V-S9 and V-S10: nine coils, the padding bits all ones and all zeros. -/
theorem witness_PaddingBitsReachNoFlag :
    let s := exchanged .extract [] [0x01, 0x01, 0x02, 0xFF, 0xFF, 0xB8, 0x4C] 7
    let r := holding [0x01, 0x01, 0x02, 0xFF, 0x01, 0x39, 0xCC]
    Claims.running .extract s ∧ (9 : Word).toNat ≤ 2000 ∧
    (∀ k, k < (9 : Word).toNat → (readByte .rep (3 + k / 8) s).getLsbD (k % 8) =
      (readByte .rep (3 + k / 8) { s with rep := r }).getLsbD (k % 8)) ∧
    ∃ u, exec (.rdCoils 1 0 9 50) s = .next u :=
  ⟨by decide, by decide, by decide, _, rfl⟩

/-- V-S2 and V-S11: the byte count differs. -/
theorem witness_ReadRepliesAreAcceptedWhateverTheirByteCount :
    let s := exchanged .vid [0x01, 0x03, 0x00, 0x00, 0x00, 0x02, 0xC4, 0x0B]
      [0x01, 0x03, 0x04, 0x12, 0x34, 0xAB, 0xCD, 0x00, 0x20] 9
    let r := holding [0x01, 0x03, 0xFF, 0x12, 0x34, 0xAB, 0xCD, 0xE5, 0xF4]
    Claims.running .vid s ∧ s.rxn ≠ 5 ∧ readByte .rep 0 { s with rep := r } = readByte .rep 0 s ∧
    readByte .rep 1 { s with rep := r } = readByte .rep 1 s ∧ ∃ u, exec (.rdRegisters 1 0 2 50) s = .next u :=
  ⟨by decide, by decide, by decide, by decide, _, rfl⟩

/-- V-C2. -/
theorem witness_CrcRoundTrip : ([0x00] : List Byte) ≠ [] := by decide

/-- V-C13, the last bit of the last byte; V-C16, the shortest frame. -/
theorem witness_SingleBitErrorsAreDetected :
    (validate requestF11 = true ∧ requestF11[7]? = some 0x78 ∧ 7 < 8) ∧
    (validate [0x00, 0xBF, 0x40] = true ∧ ([0x00, 0xBF, 0x40] : List Byte)[0]? = some 0x00 ∧ 0 < 8) := by decide

/-- V-C16: exactly three bytes. -/
theorem witness_CrcResidueIsZero : 3 ≤ ([0x00, 0xBF, 0x40] : List Byte).length := by decide

/-- Idle, and while a command runs. -/
theorem witness_ResetGivesTheTableValues : pendingEvent { idleState with agenda := [.reset] } = .reset ∧
    pendingEvent { writeState with agenda := [.reset] } = .reset := by decide

theorem witness_HostRegisterWrites :
    idleState.busy = false ∧ writeState.busy = true ∧ (1 : BitVec 64).getLsbD 0 = true := by decide

/-- The last index of WDATA, and the first that is none; so of the three buffers the host cannot write. -/
theorem witness_HostWritesWdata : idleState.busy = false ∧ 255 < 256 ∧ 256 ≤ 256 ∧
    (∀ x ∈ [((Space.rdata, 2000), 1999), ((.req, 256), 255), ((.rep, 256), 255)],
      x.1 ∈ [(Space.rdata, 2000), (.req, 256), (.rep, 256)] ∧ x.2 < x.1.2) := by decide

theorem witness_CounterStrobes : (6 : BitVec 64).getLsbD 0 = false ∧
    (∃ t, sequencerStep {} ⟨true, true⟩ writeState = .next t) := ⟨by decide, _, rfl⟩

/-- The last byte of the reply and of the request, the last index of each buffer; a result register while idle, another
while a command runs, TS. -/
theorem witness_HostReadsHaveNoSideEffect :
    (∀ x ∈ [(Space.wdata, 255), (.rdata, 1999), (.req, 255), (.rep, 255)], x.2 < spaceSize x.1) ∧
    (let s := { vidState with busy := false, ph := .idle, resLen := 2000 }
     s.busy = false ∧ 7 < s.rxn.toNat ∧ 7 < s.reqLen.toNat ∧ 7 < 256 ∧ 1999 < s.resLen.toNat ∧ 1999 < 2000 ∧
      Reg.rxn ∈ [Reg.rxn, .resLen, .excCode, .crcOut, .reqLen, .repLen] ∧ s.tsValid = true) ∧
    vidState.busy = true ∧ Reg.ts ∉ [Reg.rxn, .resLen, .excCode, .crcOut, .reqLen, .repLen] ∧ vidState.tsValid = true := by
  decide

/-- Room for one byte more at the smallest depth; a full queue; a closed transport. -/
theorem witness_DeliveryFillsTheReceiveQueue :
    (let s := { idleState with rxq := List.replicate 255 0 }
     s.xport = .opened ∧ s.rxq.length < Config.rxqDepth) ∧
    (let s := { idleState with rxq := List.replicate Config.rxqDepth 0 }
     s.xport = .opened ∧ Config.rxqDepth ≤ s.rxq.length) ∧
    checkState.xport ≠ .opened := by
  refine ⟨⟨rfl, ?_⟩, ⟨rfl, ?_⟩, by decide⟩
  · rw [List.length_replicate]
    exact Nat.lt_of_lt_of_le (by decide : 255 < Config.rxqMinDepth) (Nat.le_add_right ..)
  · rw [List.length_replicate]

theorem witness_TransmissionIsQueueOrder :
    (let s := { inPhase .drain with txq := [0x85, 0x78] }
     s.xport = .opened ∧ s.txq = 0x85 :: [0x78] ∧ dataBits s.cfgAct = 8) ∧
    (inPhase .drain).txq = [] ∧ checkState.xport ≠ .opened := by decide

/-- wrBytes of V-F20, and as many data bytes as WDATA has. -/
theorem witness_CallSequenceStartsItsCommand :
    (∀ data ∈ [[(0xDE : Byte), 0xAD, 0xBE], List.replicate 256 0], data.length ≤ 256) ∧
    (let s := { idleState with agenda := callEvents (.wrBytes 2 0x0100 3 50) [0xDE, 0xAD, 0xBE] }
     s.busy = false ∧ s.agenda = callEvents (.wrBytes 2 0x0100 3 50) [0xDE, 0xAD, 0xBE] ++ []) :=
  ⟨by decide, rfl, by rw [List.append_nil]⟩

end Sys2Proof.Tests
end

section
/-! PROOFS. The statements of 10_state: CFG and STATUS, the host's accesses, the transport state, the frame of each
phase, and the invariant over every step. Lemmas first, each obligation after the lemmas it needs. -/

open Sys2Proof.Claims

namespace Sys2Proof.Machine

/-! ## CFG and STATUS -/

/-- A field of CFG other than PARITY is the written one. -/
theorem extractLsb'_mergeCfg (old new : Byte) {start len : Nat}
    (hnew : (0xE7 : Byte).extractLsb' start len = BitVec.allOnes len)
    (hold : (0x18 : Byte).extractLsb' start len = 0#len) :
    (mergeCfg old new).extractLsb' start len = new.extractLsb' start len := by
  unfold mergeCfg
  split
  · rw [BitVec.extractLsb'_or, BitVec.extractLsb'_and, BitVec.extractLsb'_and, hnew, hold, BitVec.and_allOnes,
      BitVec.and_zero, BitVec.or_zero]
  · rfl

/-- The line settings each field of CFG names (10_state R35, 00_scope R7). -/
theorem cfg_names_settings (c : Byte) :
    (c.extractLsb' 0 3, baudRate c) ∈ [(0, 1200), (1, 2400), (2, 4800), (3, 9600), (4, 19200), (5, 38400), (6, 57600),
      (7, 115200)] ∧
    (c.extractLsb' 3 2, parityOf c) ∈ [(0, some .none), (1, some .odd), (2, some .even), (3, none)] ∧
    (c.extractLsb' 5 2, dataBits c) ∈ [(0, 5), (1, 6), (2, 7), (3, 8)] ∧
    (c.extractLsb' 7 1, stopBits c) ∈ [(0, 1), (1, 2)] := by
  revert c; decide

/-- PARITY after a write of CFG: the reserved value leaves it (10_state R35). -/
theorem parityField_mergeCfg (old new : Byte) :
    parityField (mergeCfg old new) = if parityField new = 3 then parityField old else parityField new := by
  unfold mergeCfg
  split
  · have hnew : (0xE7 : Byte).extractLsb' 3 2 = 0#2 := rfl
    have hold : (0x18 : Byte).extractLsb' 3 2 = BitVec.allOnes 2 := rfl
    rw [parityField, BitVec.extractLsb'_or, BitVec.extractLsb'_and, BitVec.extractLsb'_and, hnew, hold,
      BitVec.and_allOnes, BitVec.and_zero, BitVec.zero_or]
    rfl
  · rfl

/-- Settles O55: a write stores `mergeCfg` of the old and the written value, field by field the one the rule asks. -/
theorem cfgKeepsALegalParity : Obligations.CfgKeepsALegalParity := by
  intro s v
  have low : ∀ {start len}, start + len ≤ 8 → (v.setWidth 8).extractLsb' start len = v.extractLsb' start len :=
    fun h => BitVec.extractLsb'_setWidth_of_le h
  obtain ⟨hbaud, hparity, hdata, hstop⟩ := cfg_names_settings (mergeCfg s.cfg (v.setWidth 8))
  refine ⟨mergeCfg s.cfg (v.setWidth 8), rfl, ?_, ?_, ?_, hbaud, hparity, hdata, hstop, rfl, by decide⟩
  · rw [extractLsb'_mergeCfg _ _ rfl rfl, low (by decide)]
  · rw [extractLsb'_mergeCfg _ _ rfl rfl, low (by decide)]
  · rw [← low (by decide)]
    exact parityField_mergeCfg ..

/-- The fields of a word put together as STATUS is, each at its bits. -/
theorem getLsbD_extractLsb'_append (r : BitVec 22) (v : Bool) (x : BitVec 2) (c : Bool) (e : BitVec 4) (d b : Bool) :
    let w := r ++ BitVec.ofBool v ++ x ++ BitVec.ofBool c ++ e ++ BitVec.ofBool d ++ BitVec.ofBool b
    w.getLsbD 0 = b ∧ w.getLsbD 1 = d ∧ w.extractLsb' 2 4 = e ∧ w.getLsbD 6 = c ∧ w.extractLsb' 7 2 = x ∧
    w.getLsbD 9 = v ∧ w.extractLsb' 10 22 = r := by
  simp only [BitVec.getLsbD_append]
  simp [BitVec.extractLsb'_append_eq_of_le, BitVec.extractLsb'_append_eq_of_add_le, -Nat.reduceAdd]

/-- Settles O51: STATUS is its fields put together; the codes are lists of values. -/
theorem statusFieldsAreWhereTheSpecPutsThem : Obligations.StatusFieldsAreWhereTheSpecPutsThem :=
  ⟨fun _ => getLsbD_extractLsb'_append _ _ _ _ _ _ _, rfl, rfl, rfl⟩

/-- Settles O52: the next state is `resetBlock`, whose fields are those of `State.reset`. -/
theorem resetGivesTheTableValues : Obligations.ResetGivesTheTableValues := by
  intro s hs
  refine ⟨resetBlock (afterEvent s), by rw [step, hs]; rfl, ?_⟩
  simp only [resetBlock, State.reset, statusWord, true_and]
  decide

/-! ## The host's accesses -/

theorem whenIdle_idle {r : Reg} {t s : State} (hb : s.busy = false) : whenIdle r t s = .next t := by
  simp [whenIdle, hb]

theorem whenIdle_busy {r : Reg} {t s : State} (hb : s.busy = true) :
    whenIdle r t s = .refused (.operandWhileBusy r) := by simp [whenIdle, hb]

theorem writeCtrl_of_not_start {v : BitVec 64} (hv : startBit v = false) (s : State) :
    writeCtrl v s = .next (clearCounters (strobesOf v) s) := by simp [writeCtrl, hv]

theorem writeCtrl_start_busy {v : BitVec 64} (hv : startBit v = true) {s : State} (hb : s.busy = true) :
    writeCtrl v s = .refused .startWhileBusy := by simp [writeCtrl, hv, hb]

theorem writeWData_busy {i : Nat} {b : Byte} {s : State} (hb : s.busy = true) :
    writeWData i b s = .refused .wdataWhileBusy := if_pos hb

theorem writeWData_idle {i : Nat} {b : Byte} {s : State} (hb : s.busy = false) :
    writeWData i b s =
      if i < Config.wdataDepth then .next { s with wdata := s.wdata.set i b } else .fault (.noSuchIndex .wdata) := by
  simp [writeWData, hb, spaceSize]

/-- Settles O53, register by register: an operand's write asks for BUSY = 0, a read-only register's does nothing. -/
theorem hostRegisterWrites : Obligations.HostRegisterWrites := by
  refine fun s v => ⟨fun hb => ?_, fun hb => ⟨fun r hr => ?_, fun _ _ => writeWData_busy hb,
    fun hv => writeCtrl_start_busy hv hb⟩, fun r hr => ?_⟩
  · exact ⟨whenIdle_idle hb, whenIdle_idle hb, whenIdle_idle hb, whenIdle_idle hb, whenIdle_idle hb, whenIdle_idle hb⟩
  · simp only [List.mem_cons, List.not_mem_nil, or_false] at hr
    rcases hr with rfl | rfl | rfl | rfl | rfl | rfl <;> exact whenIdle_busy hb
  · simp only [List.mem_cons, List.not_mem_nil, or_false] at hr
    rcases hr with rfl | rfl | rfl | rfl | rfl | rfl | rfl | rfl | rfl | rfl | rfl <;> rfl

/-- Settles O54: a byte of WDATA reads back and is the only one that changes. -/
theorem hostWritesWdata : Obligations.HostWritesWdata := by
  refine fun s i b => ⟨fun hb hi => ?_, fun hb hi => ?_, fun x hx => ?_⟩
  · refine ⟨{ s with wdata := s.wdata.set i b }, (writeWData_idle hb).trans (if_pos hi), ?_, fun j hj => ?_, rfl⟩
    · simp [readByte, State.buffer, get?_set_same]
    · simp [readByte, State.buffer, get?_set_ne _ _ hj]
  · exact (writeWData_idle hb).trans (if_neg (Nat.not_lt.2 hi))
  · simp only [List.mem_cons, List.not_mem_nil, or_false] at hx
    rcases hx with rfl | rfl | rfl <;> rfl

/-- Every sequencer step ends with the strobes of the same step (10_state R28). -/
theorem sequencerStep_strobes {d : Draw} {r : Strobes} {s t : State} (h : sequencerStep d r s = .next t) :
    ∃ u, t = clearCounters r u := by
  cases sequencerStep_step h <;> exact ⟨_, rfl⟩

/-- Settles O56: without START a write of CTRL is its strobes, and a sequencer step ends with its own. -/
theorem counterStrobes : Obligations.CounterStrobes := by
  refine ⟨fun s v hv => writeCtrl_of_not_start hv s, fun s d r t h => ?_⟩
  obtain ⟨u, rfl⟩ := sequencerStep_strobes h
  exact ⟨fun hr => if_pos hr, fun hr => if_pos hr⟩

theorem settledResult_idle {w : Nat} (r : Reg) (v : BitVec w) {s : State} (hb : s.busy = false) :
    settledResult r v s = v.setWidth 64 := by simp [settledResult, hb]

/-- Where R44 fixes what a host read of a register returns, it is what the register holds. -/
theorem readRegister_eq_held {r : Reg} {s : State}
    (hr : r ∈ [Reg.rxn, .resLen, .excCode, .crcOut, .reqLen, .repLen] → s.busy = false)
    (ht : r = .ts → s.tsValid = true) : readRegister r s = held r s := by
  cases r <;> simp_all [readRegister, held, settledResult_idle]

theorem readEntry_valid {sp : Space} {i : Nat} {s : State} (ho : ownedByHost sp s = true) (hi : i < validLength sp s) :
    readEntry sp i s = readByte sp i s := by simp [readEntry, ho, hi]

/-- A host read of an entry that holds a specified byte, in a buffer that is the host's now. -/
theorem readBuffer_valid {sp : Space} {i : Nat} {s : State} (hs : i < spaceSize sp) (ho : ownedByHost sp s = true)
    (hi : i < validLength sp s) :
    hostStep (.readBuffer sp i) s = .next (hostSees ((readByte sp i s).setWidth 64) s) := by
  simp [hostStep, readBuffer, hs, readEntry_valid ho hi]

/-- Settles O57: a read stores its value where the host sees it and nothing else. -/
theorem hostReadsHaveNoSideEffect : Obligations.HostReadsHaveNoSideEffect := by
  intro s
  refine ⟨fun r => ⟨_, rfl⟩, fun sp i hi => ⟨_, if_pos hi⟩, fun r hr ht => ?_, fun i hi => ?_, fun hb => ?_⟩
  · rw [← readRegister_eq_held hr ht]; rfl
  · exact readBuffer_valid hi rfl hi
  · have ho : ∀ sp, ownedByHost sp s = true := fun sp => by cases sp <;> simp [ownedByHost, hb]
    exact ⟨fun i hi hs => readBuffer_valid hs (ho _) hi, fun i hi hs => readBuffer_valid hs (ho _) hi,
      fun i hi hs => readBuffer_valid hs (ho _) hi⟩

/-! ## The transport state -/

theorem noteException_xport (s : State) : (noteException s).xport = s.xport := by rw [noteException_eq]

theorem lineStep_xport (a : LineAction) (s : State) : (lineStep a s).xport = s.xport := by
  cases a with
  | deliver d => simp only [lineStep, deliver]; split <;> rfl
  | transmit => simp only [lineStep, transmit]; split <;> [split <;> rfl; rfl]

/-- What a step other than a reset can do to XPORT (10_state R34): leave it, open it in INIT, or close it with an error
that invalidates. -/
def TransportMove (s t : State) : Prop :=
  t.xport = s.xport ∨
  (s.busy = true ∧ s.ph = .init ∧ t.xport = .opened ∧ t.ph = .flush ∧ t.rxq = [] ∧ t.txq = []) ∨
  (s.busy = true ∧ (t.err = some .systemCall ∨ t.err = some .consistency) ∧ t.done = true ∧ t.xport = .closed ∧
    t.rxq = [] ∧ t.txq = [])

/-- An error from a state with the old XPORT closes the transport exactly for the two kinds that invalidate. -/
theorem transportMove_raise {s u : State} (hb : s.busy = true) (hu : u.xport = s.xport) (k : ErrorKind) :
    TransportMove s (raise k u) := by
  cases k
  case systemCall => exact .inr (.inr ⟨hb, .inl rfl, rfl, rfl, rfl, rfl⟩)
  case consistency => exact .inr (.inr ⟨hb, .inr rfl, rfl, rfl, rfl, rfl⟩)
  all_goals exact .inl hu

theorem transportMove_commandStep {i : Instr} {s t : State} (h : CommandStep i s t) : TransportMove s t := by
  cases h with
  | initOpens hb hp => exact .inr (.inl ⟨hb, hp, rfl, rfl, rfl, rfl⟩)
  | vidPasses => exact .inl (noteException_xport s)
  | vidFails hb => exact transportMove_raise hb (noteException_xport s) _
  | checkFails hb | initFails hb | portFault hb | gapEarly hb | writesShort hb | readTimeout hb | crcShort hb
  | crcFails hb => exact transportMove_raise hb (by rfl) _
  | _ => exact .inl rfl

theorem transportMove_eventStep {s t : State} {e : Event} (h : EventStep s e t) :
    TransportMove s t ∨ (e = .reset ∧ t.xport = .uninitialized) := by
  cases h with
  | resets => exact .inr ⟨rfl, rfl⟩
  | writesOperand _ _ _ _ ht => rw [ht]; exact .inl (.inl rfl)
  | line a => exact .inl (.inl (lineStep_xport a s))
  | command _ _ _ _ _ _ hu =>
    have hmove := transportMove_commandStep (exec_step hu)
    exact .inl hmove
  | illegal d _ _ hb =>
    have hmove : TransportMove s (raise .bounds { s with draw := d }) := transportMove_raise hb (by rfl) _
    exact .inl hmove
  | _ => exact .inl (.inl rfl)

/-- Settles O11: what the pending event does to XPORT, taking it off the agenda doing nothing. -/
theorem transportStateTransitions : Obligations.TransportStateTransitions := by
  intro s t h
  rcases transportMove_eventStep (step_event h) with (h | h | h) | h
  · exact .inl h
  · exact .inr (.inl h)
  · exact .inr (.inr (.inl h))
  · exact .inr (.inr (.inr h))

/-! ## The frame of each phase (10_state R47) -/

theorem toNat_ofNat_of_le_maxAdu {n : Nat} (hn : n ≤ Config.maxAdu) : (BitVec.ofNat 9 n).toNat = n := by
  rw [BitVec.toNat_ofNat, Nat.mod_eq_of_lt (Nat.lt_of_le_of_lt hn (by decide))]


/-- Every phase may leave the block as it is. -/
theorem phaseFrame_refl (s : State) : phaseFrame s s := by
  unfold phaseFrame
  split <;> simp

/-- Beyond the bytes a store writes every byte is as before. -/
theorem readByte_setRange_outside (s : State) (sp : Space) {off j : Nat} {bs : List Byte}
    (hj : j < off ∨ off + bs.length ≤ j) :
    readByte sp j (s.setBuffer sp ((s.buffer sp).setRange off bs)) = readByte sp j s := by
  rw [readByte_setRange, if_neg (by omega)]

/-- Settles O12, by cases on what a step of a command can do. -/
theorem eachPhaseWritesOnlyItsOwnState : Obligations.EachPhaseWritesOnlyItsOwnState := by
  intro i s t hb h
  cases exec_step h with
  | starts hn => rw [hb] at hn; cases hn
  | noRule | waits => exact phaseFrame_refl s
  | checkPasses _ hp | checkCrc _ hp | initOpens _ hp | flushes _ hp | gapwPasses _ hp | gaprPasses _ hp
  | writesAll _ hp | drained _ hp | vcrcPasses _ hp => simp [phaseFrame, hp]
  | checkFails _ hp | checkEmpty _ hp | initFails _ hp | writesShort _ hp | crcop _ hp =>
    simp only [phaseFrame, hp]; rfl
  | gapEarly _ hp | crcShort _ hp | crcFails _ hp => rcases hp with hp | hp <;> simp only [phaseFrame, hp] <;> rfl
  | portFault _ hp =>
    rcases hp with hp | hp | hp | hp <;> simp only [phaseFrame, hp]
    case inr.inr.inr => exact ⟨rfl, fun _ _ => rfl⟩
    all_goals rfl
  | vidFails _ hp => rw [noteException_eq]; simp only [phaseFrame, hp]; rfl
  | vidPasses _ hp => rw [noteException_eq]; simp [phaseFrame, hp]
  | builds _ hp p _ data _ _ hq =>
    simp only [phaseFrame, hp]
    refine ⟨trivial, fun j hj => readByte_setRange_outside s .req (.inr ?_)⟩
    rw [toNat_ofNat_of_le_maxAdu hq] at hj
    omega
  | readTimeout _ hp | readDone _ hp | extractsNothing _ hp =>
    simp only [phaseFrame, hp]
    exact ⟨rfl, fun _ _ => rfl⟩
  | readByte _ hp _ d =>
    simp only [phaseFrame, hp]
    refine ⟨trivial, fun j hj => readByte_setRange_outside s .rep ?_⟩
    rw [List.length_singleton]
    omega
  | extracts _ hp bs hl =>
    simp only [phaseFrame, hp]
    refine ⟨rfl, fun j hj => readByte_setRange_outside s .rdata (.inr ?_)⟩
    rw [BitVec.toNat_ofNat, Nat.mod_eq_of_lt (Nat.lt_of_le_of_lt hl (by decide))] at hj
    omega

/-! ## What CHECK lets pass -/

/-- What CHECK tests of a Modbus operation is what the operand ranges ask (42_sequencer R192, R194). -/
theorem accepted_of_plan {i : Instr} {p : Plan} (hi : planOf i = some p) (hs : p.slave ≠ 0)
    (he : p.emptyWrite = false) (hn : p.inBounds = true) : accepted i = true := by
  have hw : i.wellFormed = true := by
    cases i <;> simp only [planOf, Option.some.injEq, reduceCtorEq] at hi <;> subst hi <;>
      simp_all [Instr.wellFormed, Instr.slaveOk, Instr.countOk, planRdCoils, planRdRegisters, planWrCoil,
        planWrRegister, planWrRegisters, planRdBytes, planWrBytes]
  simp [accepted, emptyWrite, hi, hw, he]

/-- What CHECK tests of a CRC unit command is its bound on COUNT (42_sequencer R192). -/
theorem accepted_of_countField {i : Instr} (hi : planOf i = none) (hn : i.countField.toNat ≤ Config.wdataDepth) :
    accepted i = true := by
  rcases planOf_cases i with ⟨p, hp⟩ | ⟨n, rfl⟩ | ⟨n, rfl⟩
  · rw [hi] at hp; cases hp
  all_goals
    simpa [accepted, emptyWrite, planOf, Instr.wellFormed, Instr.slaveOk, Instr.countOk, Instr.countField] using hn

/-! ## Updates that keep the invariant in the phase it holds in -/

/-- Storing a canonical buffer leaves every buffer canonical. -/
theorem wf_setBuffer {s : State} (h : ∀ sq, Memory.wf (spaceSize sq) (s.buffer sq) = true) (sp : Space) {m : Memory}
    (hm : Memory.wf (spaceSize sp) m = true) (sq : Space) :
    Memory.wf (spaceSize sq) ((s.setBuffer sp m).buffer sq) = true := by
  by_cases e : sq = sp
  · subst e; rw [buffer_setBuffer_same]; exact hm
  · rw [buffer_setBuffer_ne s m e]; exact h sq

/-- No result is offered while a command runs (10_state R30). -/
theorem resLen_of_busy {s : State} (h : BlockInv s) (hb : s.busy = true) : s.resLen = 0 := by
  obtain ⟨-, -, hres⟩ := h.quiet hb
  exact hres

theorem blockInv_stamp {s : State} (h : BlockInv s) : BlockInv (stamp s) :=
  { h with stamped := fun _ => rfl }

theorem blockInv_acceptBytes {s : State} (h : BlockInv s) (ho : s.xport = .opened) (bs : List Byte) :
    BlockInv (acceptBytes bs s) :=
  { h with queues := fun hx => absurd ho hx }

theorem blockInv_flushPort {s : State} (h : BlockInv s) : BlockInv (flushPort s) :=
  { h with
    queues := fun _ => ⟨rfl, rfl⟩
    rxqBound := Nat.zero_le _ }

theorem blockInv_clearCounters {s : State} (h : BlockInv s) (r : Strobes) : BlockInv (clearCounters r s) :=
  blockInv_congr h rfl rfl rfl

/-- The READ byte step: the byte goes where RXN points, below REP_LEN (42_sequencer R216). -/
theorem blockInv_readByte {s : State} (h : BlockInv s) (hp : s.ph = .read) {d : Byte} {q : List Byte}
    (hq : s.rxq = d :: q) (hl : s.rxn < s.repLen) :
    BlockInv { s with rep := s.rep.setRange s.rxn.toNat [d], rxq := q, rxn := s.rxn + 1,
                      rxCount := s.rxCount + 1 } := by
  obtain ⟨hreq, hrep, hrxn, hres⟩ := h.lengths
  have hlt : s.rxn.toNat < s.repLen.toNat := hl
  have hrep' : s.repLen.toNat ≤ 256 := hrep
  have hsucc : (s.rxn + 1).toNat = s.rxn.toNat + 1 := by
    rw [BitVec.toNat_add, show (1 : BitVec 9).toNat = 1 from rfl]; omega
  refine { h with
    buffers := wf_setBuffer h.buffers .rep (wf_setRange (h.buffers .rep) (by simp [spaceSize]; omega))
    queues := fun hx => absurd (h.portOpen (by rw [hp]; rfl)) hx
    rxqBound := ?_
    lengths := ⟨hreq, hrep, by simp only [hsucc]; omega, hres⟩
    unread := fun hx => ?_
    received := by simp [hp]
    replyHeld := fun k hk => ?_ }
  · have := h.rxqBound
    rw [hq, List.length_cons] at this
    exact Nat.le_of_succ_le this
  · rw [show beforeRead s.ph = false by rw [hp]; rfl] at hx
    cases hx
  · simp only [hsucc] at hk
    rw [get?_setRange]
    split
    · next hc =>
      rw [List.length_singleton] at hc
      rw [show k - s.rxn.toNat = 0 by omega]; rfl
    · next hc =>
      rw [List.length_singleton] at hc
      exact h.replyHeld k (by omega)

/-! ## The end of a command -/

theorem blockInv_completeOk {s : State} (h : BlockInv s) : BlockInv (completeOk s) := by
  refine { h with busyPhase := ?_, notBoth := ?_, quiet := ?_, noResult := ?_, portOpen := ?_, initClosed := ?_,
                  command := ?_, request := ?_, stamped := ?_, unread := ?_, received := ?_ } <;>
    simp [needsPort, pastCheck, pastBuild, pastWrite, beforeRead]

theorem blockInv_deliverResult {s : State} (h : BlockInv s) {bs : List Byte} (hl : bs.length ≤ Config.rdataDepth) :
    BlockInv { completeOk s with rdata := s.rdata.setRange 0 bs, resLen := BitVec.ofNat 11 bs.length } := by
  have hc := blockInv_completeOk h
  obtain ⟨hreq, hrep, hrxn, -⟩ := hc.lengths
  exact { hc with
    buffers := wf_setBuffer hc.buffers .rdata (wf_setRange (hc.buffers .rdata) (by simpa [spaceSize] using hl))
    quiet := fun hb => by simp at hb
    noResult := fun he => absurd rfl he
    lengths := ⟨hreq, hrep, hrxn, Nat.le_trans (BitVec.toNat_ofNat _ _ ▸ Nat.mod_le ..) hl⟩ }

/-- EXC_CODE stays 0 without EXC over exception detection (42_sequencer R226). -/
theorem noteException_excCode {s : State} (h : s.exc = false → s.excCode = 0) :
    (noteException s).exc = false → (noteException s).excCode = 0 := by
  unfold noteException
  split
  · intro he; cases he
  · exact h

theorem blockInv_raise_noteException {s : State} (h : BlockInv s) (hr : s.resLen = 0) (k : ErrorKind) :
    BlockInv (raise k (noteException s)) := by
  have hx := noteException_excCode h.excCode
  rw [noteException_eq s]
  exact { blockInv_raise h hr k with
    quiet := fun hb => by cases hb
    excCode := hx }

/-! ## From one phase of a command to the next -/

/-- What the invariant asks of a running command that is about to be in phase `q`. -/
structure MayEnter (q : Phase) (s : State) : Prop where
  notIdle : q ≠ .idle
  portOpen : needsPort q = true → s.xport = .opened
  initClosed : q = .init → s.xport ≠ .opened
  command : pastCheck q = true →
    ∃ i, decode (commandWord s) = .ok i ∧ accepted i = true ∧ (q = .crcop ↔ planOf i = none)
  request : pastBuild q = true → ∀ i p, decode (commandWord s) = .ok i → planOf i = some p → holdsRequest p s
  stamped : pastWrite q = true → s.tsValid = true
  unread : beforeRead q = true → s.rxn = 0
  received : (q = .vcrc → s.rxn ≠ 0) ∧ (q = .vid → 3 ≤ s.rxn.toNat) ∧ (q = .extract → s.rxn = s.repLen)

theorem blockInv_enter {s : State} (h : BlockInv s) (hb : s.busy = true) {q : Phase} (hq : MayEnter q s) :
    BlockInv { s with ph := q } :=
  { hq, h with busyPhase := by simp [hb, hq.notIdle] }

/-- How two phases that use the port, joined by an edge, compare. -/
theorem phaseEdge_of_needsPort {p q : Phase} (hp : needsPort p = true) (he : phaseEdge p q = true) :
    needsPort q = true ∧ pastCheck p = true ∧ p ≠ .crcop ∧ (p ≠ .build → pastBuild q = true → pastBuild p = true) ∧
    (beforeRead q = true → beforeRead p = true) := by
  cases p <;> cases q <;> simp [needsPort, phaseEdge, pastCheck, pastBuild, beforeRead] at *

theorem ne_of_needsPort {q : Phase} (h : needsPort q = true) : q ≠ .idle ∧ q ≠ .init ∧ q ≠ .crcop := by
  cases q <;> simp [needsPort] at *

theorem pastCheck_of_ne {p : Phase} (hi : p ≠ .idle) (hc : p ≠ .check) : pastCheck p = true := by
  cases p <;> simp [pastCheck] at *

/-- The command CHECK let pass is there in every later phase but CRCOP. -/
theorem modbus_of_pastCheck {s : State} (h : BlockInv s) (hp : pastCheck s.ph = true) (hc : s.ph ≠ .crcop) :
    ∃ i, decode (commandWord s) = .ok i ∧ accepted i = true ∧ planOf i ≠ none := by
  obtain ⟨i, hi, ha, hn⟩ := h.command hp
  exact ⟨i, hi, ha, fun e => hc (hn.2 e)⟩

/-- The phases that use the port hand on all the invariant says but what the next one asks anew. -/
theorem blockInv_nextPhase {s : State} (h : BlockInv s) (hb : s.busy = true) {p q : Phase} (hp : s.ph = p)
    (hport : needsPort p = true) (he : phaseEdge p q = true)
    (hr : p = .build → ∀ i p, decode (commandWord s) = .ok i → planOf i = some p → holdsRequest p s)
    (hs : pastWrite q = true → s.tsValid = true)
    (hn : (q = .vcrc → s.rxn ≠ 0) ∧ (q = .vid → 3 ≤ s.rxn.toNat) ∧ (q = .extract → s.rxn = s.repLen)) :
    BlockInv { s with ph := q } := by
  subst hp
  obtain ⟨hq, hpast, hcrc, hbuild, hread⟩ := phaseEdge_of_needsPort hport he
  obtain ⟨hidle, hinit, hqcrc⟩ := ne_of_needsPort hq
  obtain ⟨i, hi, ha, hm⟩ := modbus_of_pastCheck h hpast hcrc
  exact blockInv_enter h hb {
    notIdle := hidle
    portOpen := fun _ => h.portOpen hport
    initClosed := fun e => absurd e hinit
    command := fun _ => ⟨i, hi, ha, iff_of_false hqcrc hm⟩
    request := fun e => if hc : s.ph = .build then hr hc else h.request (hbuild hc e)
    stamped := hs
    unread := fun e => h.unread (hread e)
    received := hn }

/-- CHECK lets the command pass: to FLUSH or INIT as the transport is, to CRCOP if it is a CRC unit command
(42_sequencer R192, R195). -/
theorem blockInv_leavesCheck {s : State} (h : BlockInv s) (hb : s.busy = true) (hp : s.ph = .check) {q : Phase}
    (he : phaseEdge .check q = true) (hflush : q = .flush → s.xport = .opened) (hinit : q = .init → s.xport ≠ .opened)
    {i : Instr} (hi : decode (commandWord s) = .ok i) (ha : accepted i = true) (hc : q = .crcop ↔ planOf i = none) :
    BlockInv { s with ph := q } := by
  have hq : q = .flush ∨ q = .init ∨ q = .crcop := by cases q <;> simp [phaseEdge] at *
  have hrxn : s.rxn = 0 := h.unread (by rw [hp]; rfl)
  refine blockInv_enter h hb {
    notIdle := ?_, portOpen := ?_, initClosed := hinit, command := fun _ => ⟨i, hi, ha, hc⟩, request := ?_,
    stamped := ?_, unread := fun _ => hrxn, received := ?_ } <;>
  rcases hq with rfl | rfl | rfl <;> simp [needsPort, pastBuild, pastWrite, hflush]

/-- INIT opens the port (42_sequencer R196). -/
theorem blockInv_initOpens {s : State} (h : BlockInv s) (hb : s.busy = true) (hp : s.ph = .init) :
    BlockInv { openPort s with ph := .flush } := by
  obtain ⟨i, hi, ha, hm⟩ := modbus_of_pastCheck h (by rw [hp]; rfl) (by simp [hp])
  exact { h with
    busyPhase := by simp [hb]
    queues := fun _ => ⟨rfl, rfl⟩
    rxqBound := Nat.zero_le _
    portOpen := fun _ => rfl
    initClosed := by simp
    command := fun _ => ⟨i, hi, ha, by simp [hm]⟩
    request := by simp [pastBuild]
    stamped := by simp [pastWrite]
    unread := fun _ => h.unread (by rw [hp]; rfl)
    received := by simp }

/-- The request and the length registers as BUILD leaves them (42_sequencer R198). -/
def storeRequest (p : Plan) (data : List Byte) (s : State) : State :=
  { s with req := s.req.setRange 0 (p.request data), reqLen := BitVec.ofNat 9 (p.request data).length,
           repLen := BitVec.ofNat 9 p.replyLen }

theorem holdsRequest_storeRequest {s : State} {p : Plan} {data : List Byte}
    (hd : readRange .wdata 0 p.dataLen s = some data) (hr : p.replyLen ≤ Config.maxAdu)
    (hq : (p.request data).length ≤ Config.maxAdu) : holdsRequest p (storeRequest p data s) := by
  refine ⟨data, hd, ?_, toNat_ofNat_of_le_maxAdu hr⟩
  rw [storeRequest, toNat_ofNat_of_le_maxAdu hq]
  exact readRange_writeRange (sp := .req) s hq

theorem blockInv_storeRequest {s : State} (h : BlockInv s) (hp : s.ph = .build) {p : Plan} {data : List Byte}
    (hr : p.replyLen ≤ Config.maxAdu) (hq : (p.request data).length ≤ Config.maxAdu) :
    BlockInv (storeRequest p data s) := by
  have hrxn : s.rxn = 0 := h.unread (by rw [hp]; rfl)
  obtain ⟨-, -, -, hres⟩ := h.lengths
  exact { h with
    buffers := wf_setBuffer h.buffers .req (wf_setRange (h.buffers .req) (by simpa [spaceSize] using hq))
    lengths := ⟨(toNat_ofNat_of_le_maxAdu hq).trans_le hq, (toNat_ofNat_of_le_maxAdu hr).trans_le hr,
      by simp [storeRequest, hrxn], hres⟩
    request := by simp [storeRequest, hp, pastBuild]
    received := by simp [storeRequest, hp] }

/-- BUILD puts the request of the running command into REQ (42_sequencer R198). -/
theorem blockInv_builds {s : State} (h : BlockInv s) (hb : s.busy = true) (hp : s.ph = .build) {i : Instr} {p : Plan}
    (hi : decode (commandWord s) = .ok i) (hpl : planOf i = some p) {data : List Byte}
    (hd : readRange .wdata 0 p.dataLen s = some data) (hr : p.replyLen ≤ Config.maxAdu)
    (hq : (p.request data).length ≤ Config.maxAdu) : BlockInv { storeRequest p data s with ph := .gapw } := by
  refine blockInv_nextPhase (blockInv_storeRequest h hp hr hq) hb hp rfl rfl (fun _ j p' hj hp' => ?_)
    (by simp [pastWrite]) (by simp)
  cases hi.symm.trans hj
  cases hpl.symm.trans hp'
  exact holdsRequest_storeRequest hd hr hq

/-- A reply of the predetermined length is longer than an exception frame (30_encoding R114), so VID notes none. -/
theorem noteException_of_full {s : State} (h : BlockInv s) (hp : s.ph = .vid) (hn : s.rxn = s.repLen) :
    noteException s = s := by
  obtain ⟨i, hi, -, hm⟩ := modbus_of_pastCheck h (by rw [hp]; rfl) (by simp [hp])
  obtain ⟨p, hpl⟩ := Option.ne_none_iff_exists'.1 hm
  obtain ⟨-, -, -, hrep⟩ := h.request (by rw [hp]; rfl) i p hi hpl
  obtain ⟨hfits, -⟩ := planFits_of_blockInv h hi hpl (by rw [hp]; rfl)
  have hlong := hfits.replyLong
  refine noteException_of_not fun ⟨h5, _⟩ => ?_
  rw [← hrep, ← hn, h5] at hlong
  exact absurd hlong (by decide)

/-! ## One step -/

/-- Every sequencer step of the command the registers hold keeps the invariant. -/
theorem blockInv_commandStep {s t : State} {i : Instr} (h : BlockInv s) (hi : decode (commandWord s) = .ok i)
    (hstep : CommandStep i s t) : BlockInv t := by
  have hres : s.busy = true → s.resLen = 0 := resLen_of_busy h
  have hopen : ∀ {p}, s.ph = p → needsPort p = true → s.xport = .opened := fun hp hn => h.portOpen (hp ▸ hn)
  cases hstep with
  | starts => exact blockInv_start h
  | noRule | waits => exact h
  | checkFails hb | initFails hb | portFault hb | gapEarly hb | crcShort hb => exact blockInv_raise h (hres hb) _
  | crcFails hb _ c =>
    exact blockInv_raise (s := { s with crcAcc := c, crcOut := c }) (blockInv_congr h rfl rfl rfl) (hres hb) _
  | readTimeout hb => exact blockInv_raise (blockInv_stamp h) (hres hb) _
  | writesShort hb hp =>
    exact blockInv_raise (blockInv_stamp (blockInv_acceptBytes h (hopen hp rfl) _)) (hres hb) _
  | vidFails hb => exact blockInv_raise_noteException h (hres hb) _
  | checkEmpty | extractsNothing => exact blockInv_completeOk h
  | crcop _ _ c => exact blockInv_completeOk (s := { s with crcAcc := c, crcOut := c }) (blockInv_congr h rfl rfl rfl)
  | extracts _ _ _ hl => exact blockInv_deliverResult h hl
  | checkPasses hb hp p hpl hs he hn =>
    have ha := accepted_of_plan hpl hs he hn
    by_cases ho : s.xport = .opened
    · rw [if_pos ho]
      exact blockInv_leavesCheck h hb hp rfl (fun _ => ho) nofun hi ha (by simp [hpl])
    · rw [if_neg ho]
      exact blockInv_leavesCheck h hb hp rfl nofun (fun _ => ho) hi ha (by simp [hpl])
  | checkCrc hb hp hpl hn =>
    exact blockInv_leavesCheck h hb hp rfl nofun nofun hi (accepted_of_countField hpl hn) (by simp [hpl])
  | initOpens hb hp => exact blockInv_initOpens h hb hp
  | flushes hb hp => exact blockInv_nextPhase (blockInv_flushPort h) hb hp rfl rfl nofun nofun (by simp)
  | builds hb hp p hpl data hd hr hq => exact blockInv_congr (blockInv_builds h hb hp hi hpl hd hr hq) rfl rfl rfl
  | gapwPasses hb hp _ => exact blockInv_nextPhase h hb hp rfl rfl nofun nofun (by simp)
  | writesAll hb hp _ bs =>
    exact blockInv_nextPhase (blockInv_stamp (blockInv_acceptBytes h (hopen hp rfl) bs)) hb hp rfl rfl nofun
      (fun _ => rfl) (by simp)
  | drained hb hp => exact blockInv_nextPhase (blockInv_stamp h) hb hp rfl rfl nofun (fun _ => rfl) (by simp)
  | gaprPasses hb hp =>
    exact blockInv_congr (blockInv_nextPhase h hb hp rfl (q := .read) rfl nofun
      (fun _ => h.stamped (by rw [hp]; rfl)) (by simp)) rfl rfl rfl
  | readByte _ hp _ _ _ hq hl => exact blockInv_readByte h hp hq hl
  | readDone hb hp _ _ hn =>
    exact blockInv_nextPhase (blockInv_stamp h) hb hp rfl rfl nofun (fun _ => rfl) ⟨fun _ => hn, nofun, nofun⟩
  | vcrcPasses hb hp c hn =>
    exact blockInv_congr (blockInv_nextPhase h hb hp rfl (q := .vid) rfl nofun
      (fun _ => h.stamped (by rw [hp]; rfl)) (by simp [hn])) rfl rfl rfl
  | vidPasses hb hp hn =>
    rw [noteException_of_full h hp hn]
    exact blockInv_nextPhase h hb hp rfl rfl nofun (fun _ => h.stamped (by rw [hp]; rfl)) (by simp [hn])

/-- Every event of every agent keeps the invariant. -/
theorem blockInv_eventStep {s t : State} {e : Event} (h : BlockInv s) (hstep : EventStep s e t) : BlockInv t := by
  have hidle : s.busy = false → s.ph = .idle := fun hb => by
    by_contra hp; rw [h.busyPhase.2 hp] at hb; cases hb
  cases hstep with
  | reads a v => exact blockInv_congr h rfl rfl rfl
  | time n => exact blockInv_congr h rfl rfl rfl
  | writesOperand r v hb _ ht =>
    rw [ht]
    exact { h with
      command := by simp [hidle hb, pastCheck]
      request := by simp [hidle hb, pastBuild] }
  | writesCfg v =>
    refine { h with parity := ?_ }
    have := h.parity
    rw [parityField_mergeCfg]
    split <;> assumption
  | writesNothing | writesReadOnly => exact h
  | writesWData i b hb hi =>
    exact { h with
      buffers := wf_setBuffer h.buffers .wdata (wf_set b (h.buffers .wdata) hi)
      request := by simp [hidle hb, pastBuild] }
  | strobes v r => exact blockInv_clearCounters h r
  | noCommand _ r => exact blockInv_clearCounters h r
  | starts _ r => exact blockInv_start (blockInv_clearCounters h r)
  | line a => exact blockInv_lineStep h a
  | command d r i u _ hi hu =>
    have hd : BlockInv { s with draw := d } := blockInv_congr h rfl rfl rfl
    exact blockInv_clearCounters (blockInv_commandStep hd hi (exec_step hu)) r
  | illegal d r _ hb =>
    have hd : BlockInv { s with draw := d } := blockInv_congr h rfl rfl rfl
    exact blockInv_clearCounters (blockInv_raise hd (resLen_of_busy hd hb) _) r
  | illegalLate d r _ hb hi hp =>
    obtain ⟨i, hi', -⟩ := h.command (pastCheck_of_ne (h.busyPhase.1 hb) hp)
    rw [hi] at hi'; cases hi'
  | resets => exact blockInv_resetBlock s

/-- Settles O2: the pending event keeps the invariant, and so does taking it off the agenda. -/
theorem everyStepKeepsTheInvariant : Obligations.EveryStepKeepsTheInvariant := fun s _ h hs =>
  blockInv_eventStep (blockInv_congr (t := afterEvent s) h rfl rfl rfl) (step_event hs)

/-- Settles O1: a reset of the reset block is the reset block, but for the count of resets. -/
theorem resetMeetsTheInvariant : Obligations.ResetMeetsTheInvariant :=
  { blockInv_resetBlock State.reset with request := by simp [State.reset, pastBuild] }

end Sys2Proof.Machine
end

section
/-! PROOFS. The statements of 20_memory: one writer per buffer, and the padding bits of a coil reply. -/

open Sys2Proof.Claims

namespace Sys2Proof.Machine

/-! ## The writers of the buffers (20_memory R60) -/

/-- What the event `e`, other than a reset, may do to the buffers. A buffer the step keeps by definition needs no word. -/
structure BufferWrites (s : State) (e : Event) (t : State) : Prop where
  req : t.req = s.req ∨ (s.busy = true ∧ s.ph = .build) := by exact .inl rfl
  rep : t.rep = s.rep ∨ (s.busy = true ∧ s.ph = .read ∧ t.ph = .read ∧ t.rxn = s.rxn + 1) := by exact .inl rfl
  rdata : t.rdata = s.rdata ∨ (s.busy = true ∧ s.ph = .extract ∧ t.done = true) := by exact .inl rfl
  wdata : t.wdata = s.wdata ∨ (s.busy = false ∧ ∃ i b, e = .host (.writeBuffer .wdata i b)) := by exact .inl rfl

/-- A sequencer step of a command writes REQ in BUILD, REP in the READ byte step, RDATA in EXTRACT (R62, R63). -/
theorem bufferWrites_commandStep {i : Instr} {s t : State} (e : Event) (h : CommandStep i s t) :
    BufferWrites s e t := by
  cases h with
  | builds hb hp => exact { req := .inr ⟨hb, hp⟩ }
  | readByte hb hp => exact { rep := .inr ⟨hb, hp, hp, rfl⟩ }
  | extracts hb hp => exact { rdata := .inr ⟨hb, hp, rfl⟩ }
  | vidPasses | vidFails => rw [noteException_eq]; exact {}
  | _ => exact {}

/-- The line agent moves bytes of the queues, not of the buffers. -/
theorem lineStep_eq (a : LineAction) (s : State) :
    lineStep a s = { s with rxq := (lineStep a s).rxq, txq := (lineStep a s).txq, wire := (lineStep a s).wire } := by
  cases a with
  | deliver d => simp only [lineStep, deliver]; split <;> rfl
  | transmit => simp only [lineStep, transmit]; split <;> [split <;> rfl; rfl]

theorem bufferWrites_eventStep {s t : State} {e : Event} (he : e ≠ .reset) (h : EventStep s e t) :
    BufferWrites s e t := by
  cases h with
  | resets => exact absurd rfl he
  | writesWData i b hb => exact { wdata := .inr ⟨hb, i, b, rfl⟩ }
  | writesOperand _ _ _ _ ht => rw [ht]; exact {}
  | line a => rw [lineStep_eq]; exact {}
  | command d r i u _ _ hu =>
    obtain ⟨hreq, hrep, hrdata, hwdata⟩ := bufferWrites_commandStep (.sequencer d r) (exec_step hu)
    exact ⟨hreq, hrep, hrdata, hwdata⟩
  | _ => exact {}

/-- Settles O16: what the pending event does to the buffers, taking it off the agenda doing nothing. -/
theorem buffersHaveOneWriterEach : Obligations.BuffersHaveOneWriterEach := by
  intro s t h he
  obtain ⟨hreq, hrep, hrdata, hwdata⟩ := bufferWrites_eventStep he (step_event h)
  exact ⟨hreq, hrep, hrdata, hwdata⟩

/-! ## The result of rdCoils (20_memory R66 to R69) -/

/-- The flags EXTRACT takes from REP for `n` coils: flag `k` is bit `k % 8` of reply byte `3 + k / 8`. -/
def replyCoils (n : Nat) (s : State) : List Byte :=
  (List.range n).map fun k => if (readByte .rep (3 + k / 8) s).getLsbD (k % 8) then 1 else 0

@[simp] theorem replyCoils_length (n : Nat) (s : State) : (replyCoils n s).length = n := by simp [replyCoils]

/-- Unpacking the data bytes of a reply gives its flags: the byte of each of the `n` coils is among them. -/
theorem unpackCoils_eq_replyCoils {n : Nat} {s : State} {packed : List Byte}
    (h : readRange .rep 3 ((n + 7) / 8) s = some packed) : unpackCoils packed n = replyCoils n s := by
  refine List.map_congr_left fun k hk => ?_
  have hlt : k / 8 < (n + 7) / 8 := by
    have := List.mem_range.1 hk
    omega
  rw [coilFlag, List.getD_eq_getElem?_getD, readRange_getElem? h hlt, Option.getD_some]

/-- Only the `n` coil bits decide the flags (R69). -/
theorem replyCoils_congr {n : Nat} {s t : State}
    (h : ∀ k, k < n → (readByte .rep (3 + k / 8) s).getLsbD (k % 8) = (readByte .rep (3 + k / 8) t).getLsbD (k % 8)) :
    replyCoils n s = replyCoils n t :=
  List.map_congr_left fun k hk => by rw [h k (List.mem_range.1 hk)]

/-- EXTRACT of rdCoils puts the flags into RDATA and completes (42_sequencer R227). -/
theorem exec_rdCoils_extract {s : State} (hr : running .extract s) (a : Byte) (m : Word) {n : Word} (t : BitVec 32)
    (hn : n.toNat ≤ Config.rdataDepth) :
    exec (.rdCoils a m n t) s = .next { completeOk s with rdata := s.rdata.setRange 0 (replyCoils n.toNat s),
                                                          resLen := BitVec.ofNat 11 n.toNat } := by
  obtain ⟨hb, hp⟩ := hr
  have hfits : 3 + (n.toNat + 7) / 8 ≤ spaceSize .rep := by
    have hn : n.toNat ≤ 2000 := hn
    simp only [spaceSize, Config.maxAdu]
    omega
  have hpacked := readRange_eq s hfits
  have hflags := unpackCoils_eq_replyCoils hpacked
  calc exec (.rdCoils a m n t) s
    _ = extractPhase (planRdCoils a m n) s := (exec_of_plan rfl s).trans (transact_extract hb hp)
    _ = deliverResult (replyCoils n.toNat s) s := by rw [← hflags]; exact withRange_eq hpacked _
    _ = _ := by rw [deliverResult_eq (by simpa using hn), replyCoils_length]

/-- Settles O44: the reply reaches the next state of EXTRACT in its flags only, and they are the same. -/
theorem paddingBitsReachNoFlag : Obligations.PaddingBitsReachNoFlag := by
  intro s a m n t r u hr hn hbits h
  have hflags : replyCoils n.toNat s = replyCoils n.toNat { s with rep := r } := replyCoils_congr hbits
  rw [exec_rdCoils_extract hr a m t hn, hflags] at h
  injection h with h
  rw [exec_rdCoils_extract (s := { s with rep := r }) hr a m t hn, ← h]
  rfl

end Sys2Proof.Machine
end

section
/-! PROOFS. The statements of 30_encoding: the command word, the request frames, the commands CHECK refuses by OP or
SLAVE, the bytes of a read reply, and the call sequence. -/

open Sys2Proof.Claims

namespace Sys2Proof.Machine

/-! ## The command word (30_encoding R94) -/

/-- TIMEOUT_MS is its four bytes put together again. -/
theorem cat32_be32 (t : BitVec 32) :
    cat32 (t.extractLsb' 24 8) (t.extractLsb' 16 8) (t.extractLsb' 8 8) (t.extractLsb' 0 8) = t := by
  have join : ∀ start n, t.extractLsb' (start + 8) n ++ t.extractLsb' start 8 = t.extractLsb' start (n + 8) :=
    fun _ _ => BitVec.extractLsb'_append_extractLsb'_eq_extractLsb' rfl
  rw [cat32, join 16 8, join 8 16, join 0 24]
  exact BitVec.extractLsb'_eq_self

/-- The decoder reads the fields of a word that lie in it as the registers do. -/
theorem decode_word (op slave : Byte) (maddr count value : Word) (timeout : BitVec 32) :
    decode (op :: slave :: (be16 maddr ++ be16 count ++ be16 value ++ be32 timeout)) =
      decodeOperands op slave maddr count value timeout := by
  simp only [be16, be32, List.cons_append, List.nil_append, decode, cat8_hi8_lo8, cat32_be32]

/-- The decoder on the registers. -/
theorem decode_commandWord (s : State) :
    decode (commandWord s) = decodeOperands s.op s.slave s.maddr s.count s.value s.timeoutMs := decode_word ..

/-- The fields of a command name it. -/
theorem decodeOperands_fields (i : Instr) :
    decodeOperands i.opcode i.slaveField i.maddrField i.countField i.valueField i.timeoutField = .ok i := by
  cases i <;> rfl

/-- Settles O4: the decoder reads back the fields the encoder wrote, and they name the command. -/
theorem decodeUndoesEncode : Obligations.DecodeUndoesEncode := fun i =>
  (decode_word ..).trans (decodeOperands_fields i)

/-- Settles O6: each word is closed, and the decoder computes. -/
theorem tableWordsDecodeToTheirCommands : Obligations.TableWordsDecodeToTheirCommands :=
  ⟨rfl, rfl, rfl, rfl, rfl, rfl, rfl⟩

/-! ## The request frames (30_encoding R100 to R112) -/

/-- A frame with its CRC appended is valid (40_crc16 R141). -/
theorem validate_appendCrc {bs : List Byte} (h : bs ≠ []) : validate (appendCrc bs) = true := by
  have hpos := List.length_pos_iff.2 h
  refine validate_eq_true.2 ⟨by rw [appendCrc_length]; omega, ?_⟩
  rw [appendCrc, receivedCrc_append, frameBody_append]

/-- Reading the request of a plan whose payload begins with an address is reading the payload behind it. -/
theorem readFrame_request {p : Plan} {m : Word} {rest : List Byte} (hf : p.fields = be16 m ++ rest)
    (timeout : BitVec 32) (data : List Byte) :
    readFrame timeout (p.request data) = readPayload timeout p.slave p.fcode m (rest ++ data) := by
  have hvalid : validate (p.request data) = true := validate_appendCrc (List.cons_ne_nil _ _)
  have hbody : frameBody (p.request data) = p.slave :: p.fcode :: hi8 m :: lo8 m :: (rest ++ data) := by
    rw [Plan.request, appendCrc, frameBody_append, Plan.head, hf]
    rfl
  rw [readFrame, if_pos hvalid, hbody]
  simp only [cat8_hi8_lo8]

theorem toNat_lo8 {n : Word} (hn : n.toNat < 256) : (lo8 n).toNat = n.toNat := by
  rw [lo8, BitVec.extractLsb'_toNat, Nat.shiftRight_zero, Nat.mod_eq_of_lt hn]

/-- A count below 256 is its low byte. -/
theorem setWidth_lo8 {n : Word} (hn : n.toNat < 256) : (lo8 n).setWidth 16 = n := by
  apply BitVec.eq_of_toNat_eq
  rw [BitVec.toNat_setWidth, toNat_lo8 hn, Nat.mod_eq_of_lt n.isLt]

/-- Settles O5, operation by operation: the reader finds the address, then the fields behind it. -/
theorem requestFrameDeterminesItsCommand : Obligations.RequestFrameDeterminesItsCommand := by
  intro i p data hp hw hlen hcoil
  have hcount : i.countOk = true := (Bool.and_eq_true_iff.1 hw).2
  cases i with
  | crcCompute | crcValidate => cases hp
  | rdCoils a m n t | rdRegisters a m n t | wrRegister a m n t =>
    cases hp
    cases List.length_eq_zero_iff.1 hlen
    rw [readFrame_request rfl]
    simp [readPayload, planRdCoils, planRdRegisters, planWrRegister, be16, Instr.timeoutField]
  | wrCoil a m v t =>
    cases hp
    cases List.length_eq_zero_iff.1 hlen
    rw [readFrame_request rfl]
    rcases hcoil a m v t rfl with rfl | rfl <;> rfl
  | wrRegisters a m n t =>
    cases hp
    have hn : n.toNat ≤ 123 := of_decide_eq_true hcount
    have hlen : data.length = 2 * n.toNat := hlen
    have hbytes : (BitVec.ofNat 8 (2 * n.toNat)).toNat = 2 * n.toNat := Nat.mod_eq_of_lt (by omega)
    rw [readFrame_request (List.append_assoc ..)]
    simp [readPayload, planWrRegisters, be16, Instr.timeoutField, hbytes, hlen]
  | rdBytes a m n t =>
    cases hp
    cases List.length_eq_zero_iff.1 hlen
    have hn : n.toNat ≤ 249 := of_decide_eq_true (Bool.and_eq_true_iff.1 hcount).2
    have hbyte : (lo8 n).setWidth 16 = n := setWidth_lo8 (by omega)
    rw [readFrame_request rfl]
    simp [readPayload, planRdBytes, be16, Instr.timeoutField, hbyte]
  | wrBytes a m n t =>
    cases hp
    have hn : n.toNat ≤ 249 := of_decide_eq_true hcount
    have hbyte : (lo8 n).setWidth 16 = n := setWidth_lo8 (by omega)
    have hbytes : data.length = (lo8 n).toNat := hlen.trans (toNat_lo8 (by omega)).symm
    rw [readFrame_request rfl]
    simp [readPayload, planWrBytes, be16, Instr.timeoutField, hbyte, hbytes]

/-! ## What CHECK refuses (30_encoding R120, R121) -/

/-- The request of a Modbus operation goes to its SLAVE. -/
theorem planOf_slave {i : Instr} {p : Plan} (h : planOf i = some p) : p.slave = i.slaveField := by
  cases i <;> cases h <;> rfl

/-- Settles O22: the SLAVE test comes first in CHECK. -/
theorem slaveZeroIsRefused : Obligations.SlaveZeroIsRefused := by
  rintro i s ⟨hb, hp⟩ ⟨p, hi⟩ hs
  have hcheck : checkPhase p s = raise .bounds s := if_pos ((planOf_slave hi).trans hs)
  rw [exec_of_plan hi, transact_check hb hp, hcheck]
  rfl

/-- An OP outside the nine names no command (30_encoding R120). -/
theorem decodeOperands_illegal {op : Byte} (h : op ∉ [0x01, 0x03, 0x05, 0x06, 0x10, 0x41, 0x42, 0xF0, 0xF1])
    (slave : Byte) (maddr count value : Word) (timeout : BitVec 32) :
    decodeOperands op slave maddr count value timeout = .error (.illegalOp op) := by
  simp only [List.mem_cons, List.not_mem_nil, or_false, not_or] at h
  simp only [decodeOperands, h, if_false]

/-- Settles O23: START does not look at OP, and CHECK finds no command. -/
theorem illegalOpEndsInBoundsError : Obligations.IllegalOpEndsInBoundsError := by
  refine fun s hop => ⟨runCommand_idle, fun ⟨hb, hp⟩ => ?_⟩
  rw [runCommand_error ((decode_commandWord s).trans (decodeOperands_illegal hop ..)), illegalCommand, if_pos hb,
    if_pos hp]
  rfl

/-! ## The bytes of a read reply (30_encoding R117) -/

/-- Without a reply of five bytes the identity test reads two bytes of REP only (42_sequencer R224). -/
theorem vidIdentity_setRep {s : State} {r : Memory} (hn : s.rxn ≠ 5)
    (h0 : readByte .rep 0 { s with rep := r } = readByte .rep 0 s)
    (h1 : readByte .rep 1 { s with rep := r } = readByte .rep 1 s) :
    vidIdentity { s with rep := r } = { vidIdentity s with rep := r } := by
  have hreq : ∀ k, readByte .req k { s with rep := r } = readByte .req k s := fun _ => rfl
  have hnote : noteException s = s := noteException_of_not fun h => hn h.1
  have hnote' : noteException { s with rep := r } = { s with rep := r } := noteException_of_not fun h => hn h.1
  simp only [vidIdentity, hnote, hnote', h0, h1, hreq]
  split <;> rfl

/-- Settles O45: a read's VID is the identity test. -/
theorem readRepliesAreAcceptedWhateverTheirByteCount :
    Obligations.ReadRepliesAreAcceptedWhateverTheirByteCount := by
  rintro s i r u ⟨hb, hp⟩ hn hread h0 h1 h
  obtain ⟨p, hi, hecho⟩ : ∃ p, planOf i = some p ∧ p.echo = none := by
    rcases hread with ⟨a, m, n, t, rfl⟩ | ⟨a, m, n, t, rfl⟩ | ⟨a, m, n, t, rfl⟩ <;> exact ⟨_, rfl, rfl⟩
  have hvid : ∀ v, running .vid v → exec i v = .next (vidIdentity v) := fun v ⟨hb, hp⟩ => by
    rw [exec_of_plan hi, transact_vid hb hp, vidPhase, hecho]
  rw [hvid s ⟨hb, hp⟩] at h
  injection h with h
  rw [hvid { s with rep := r } ⟨hb, hp⟩, vidIdentity_setRep hn h0 h1, h]

/-! ## The call sequence (30_encoding R125) -/

/-- A run goes on behind the event at the head of the agenda. -/
theorem run_event {s u : State} {e : Event} {rest : List Event} (ha : s.agenda = e :: rest) (hr : isRead e = false)
    (h : takeEvent e { s with agenda := rest, moves := s.moves + 1 } = .next u) (k : Nat) :
    Host.Core.run Sys2Proof.core (k + 1) s = Host.Core.run Sys2Proof.core k u :=
  run_succ ((step_of_agenda ha hr).trans h) k

/-- The host writes of a call that put its operands into the registers. -/
def operandEvents (i : Instr) : List Event :=
  [.host (.write .op (i.opcode.setWidth 64)), .host (.write .slave (i.slaveField.setWidth 64)),
   .host (.write .maddr (i.maddrField.setWidth 64)), .host (.write .count (i.countField.setWidth 64)),
   .host (.write .value (i.valueField.setWidth 64)), .host (.write .timeoutMs (i.timeoutField.setWidth 64))]

/-- The host writes of a call that put its data into WDATA from index `k` on. -/
def dataEvents (k : Nat) (data : List Byte) : List Event :=
  data.mapIdx fun j b => .host (.writeBuffer .wdata (k + j) b)

theorem dataEvents_cons (k : Nat) (b : Byte) (data : List Byte) :
    dataEvents k (b :: data) = .host (.writeBuffer .wdata k b) :: dataEvents (k + 1) data := by
  simp only [dataEvents, List.mapIdx_cons, Nat.add_zero, Nat.add_assoc, Nat.add_comm 1]

@[simp] theorem dataEvents_length (k : Nat) (data : List Byte) : (dataEvents k data).length = data.length := by
  simp [dataEvents]

/-- A call writes its operands, then its data, then START. -/
theorem callEvents_eq (i : Instr) (data : List Byte) :
    callEvents i data = operandEvents i ++ (dataEvents 0 data ++ [.host (.write .ctrl 1)]) := by
  simp [callEvents, operandEvents, dataEvents]

/-- The registers as the operands of a command. -/
def withOperands (i : Instr) (s : State) : State :=
  { s with op := i.opcode, slave := i.slaveField, maddr := i.maddrField, count := i.countField, value := i.valueField,
           timeoutMs := i.timeoutField }

/-- A host access carries a register without loss (log 15). -/
theorem setWidth_setWidth_64 {w : Nat} (x : BitVec w) (h : w ≤ 64) : (x.setWidth 64).setWidth w = x :=
  (BitVec.setWidth_setWidth_of_le x h).trans (BitVec.setWidth_eq x)

/-- With BUSY = 0 no operand write is refused, and the six steps compute. -/
theorem run_operandEvents {s : State} {i : Instr} {rest : List Event} (hb : s.busy = false)
    (ha : s.agenda = operandEvents i ++ rest) :
    Host.Core.run Sys2Proof.core 6 s = .next { withOperands i s with agenda := rest, moves := s.moves + 6 } := by
  have hrun : Host.Core.run Sys2Proof.core 6 s =
      .next { s with op := (i.opcode.setWidth 64).setWidth 8, slave := (i.slaveField.setWidth 64).setWidth 8,
                     maddr := (i.maddrField.setWidth 64).setWidth 16, count := (i.countField.setWidth 64).setWidth 16,
                     value := (i.valueField.setWidth 64).setWidth 16,
                     timeoutMs := (i.timeoutField.setWidth 64).setWidth 32, agenda := rest, moves := s.moves + 6 } := by
    cases s
    cases hb
    cases ha
    rfl
  simpa only [withOperands, setWidth_setWidth_64, Nat.reduceLeDiff] using hrun

theorem takeEvent_writeWData {s : State} (hb : s.busy = false) {k : Nat} (hk : k < Config.wdataDepth) (b : Byte) :
    takeEvent (.host (.writeBuffer .wdata k b)) s = .next { s with wdata := s.wdata.set k b } :=
  (writeWData_idle hb).trans (if_pos hk)

/-- The data writes of a call store its bytes from index `k` on, one after the other. -/
theorem run_dataEvents {s : State} {k : Nat} {data : List Byte} {rest : List Event} (hb : s.busy = false)
    (hk : k + data.length ≤ Config.wdataDepth) (ha : s.agenda = dataEvents k data ++ rest) :
    Host.Core.run Sys2Proof.core data.length s =
      .next { s with wdata := s.wdata.setRange k data, agenda := rest, moves := s.moves + data.length } := by
  induction data generalizing s k with
  | nil =>
    rw [← show s.agenda = rest from ha]
    rfl
  | cons b data ih =>
    rw [List.length_cons] at hk
    rw [dataEvents_cons] at ha
    rw [List.length_cons, run_event ha rfl (takeEvent_writeWData (by exact hb) (by omega) b),
      ih (by exact hb) (by omega) rfl]
    simp only [Memory.setRange, Nat.add_assoc, Nat.add_comm 1]

/-- The host's START of an idle block, no strobe with it (10_state R28, 42_sequencer R190). -/
theorem takeEvent_start {s : State} (hb : s.busy = false) :
    takeEvent (.host (.write .ctrl 1)) s = .next (start s) := by
  have hrun : writeCtrl 1 s = runCommand s := by
    rw [writeCtrl, if_pos (show startBit 1 = true from rfl), if_neg (by simp [hb])]
    rfl
  exact hrun.trans (runCommand_idle hb)

/-- The steps of a call: its operands, its data, START. -/
theorem run_callEvents {s : State} {i : Instr} {data : List Byte} {rest : List Event} (hb : s.busy = false)
    (hd : data.length ≤ Config.wdataDepth) (ha : s.agenda = callEvents i data ++ rest) :
    Host.Core.run Sys2Proof.core (callEvents i data).length s =
      .next (start { withOperands i s with wdata := s.wdata.setRange 0 data, agenda := rest,
                                           moves := s.moves + 6 + data.length + 1 }) := by
  rw [callEvents_eq, List.append_assoc, List.append_assoc] at ha
  have hlen : (callEvents i data).length = 6 + (data.length + 1) := by
    rw [callEvents_eq, List.length_append, List.length_append, dataEvents_length]
    rfl
  rw [hlen, run_add (run_operandEvents hb ha), run_add (run_dataEvents (by exact hb) (by omega) rfl)]
  exact run_event rfl rfl (takeEvent_start (by exact hb)) 0

/-- Settles O60: START leaves the operands and WDATA as the host wrote them. -/
theorem callSequenceStartsItsCommand : Obligations.CallSequenceStartsItsCommand := by
  intro s i data rest hb hd ha
  refine ⟨_, run_callEvents hb hd ha, ⟨rfl, rfl⟩, (decode_commandWord _).trans (decodeOperands_fields i), rfl,
    fun k b hk => ?_⟩
  obtain ⟨hlt, -⟩ := List.getElem?_eq_some_iff.1 hk
  have hread := readByte_setRange s .wdata 0 k data
  rw [if_pos ⟨Nat.zero_le k, by omega⟩, Nat.sub_zero, List.getD_eq_getElem?_getD, hk] at hread
  exact hread

end Sys2Proof.Machine
end

section
/-! PROOFS. The statements of 40_crc16: the algebra of the generator, carried over to whole frames. -/

namespace Sys2Proof.Machine

/-! ## The table-driven unit (40_crc16 R137) -/

/-- A byte has no high byte. -/
theorem setWidth_ushiftRight_eight (d : Byte) : d.setWidth 16 >>> 8 = 0#16 := by
  apply BitVec.eq_of_toNat_eq
  have := d.isLt
  simp only [BitVec.toNat_ushiftRight, BitVec.toNat_setWidth, Nat.shiftRight_eq_div_pow, BitVec.toNat_zero]
  omega

/-- Eight bit steps shift the high byte down and look the low byte up. -/
theorem crcBits_eight (x : Word) : crcBits 8 x = x >>> 8 ^^^ crcBits 8 ((x.setWidth 8).setWidth 16) := by
  have hlow : ∀ i, i < 8 → (x ^^^ (x.setWidth 8).setWidth 16).getLsbD i = false := by
    intro i hi
    have : i < 16 := by omega
    simp [hi, this]
  have hsplit : x = (x ^^^ (x.setWidth 8).setWidth 16) ^^^ (x.setWidth 8).setWidth 16 := by
    rw [BitVec.xor_assoc, BitVec.xor_self, BitVec.xor_zero]
  conv_lhs => rw [hsplit]
  rw [crcBits_xor, crcBits_shift hlow, BitVec.ushiftRight_xor_distrib, setWidth_ushiftRight_eight,
    BitVec.xor_zero]

/-- The byte step is the table step. -/
theorem crcByte_eq_crcTableByte (a : Word) (d : Byte) : crcByte a d = crcTableByte a d := by
  have hhigh : (a ^^^ d.setWidth 16) >>> 8 = a >>> 8 := by
    rw [BitVec.ushiftRight_xor_distrib, setWidth_ushiftRight_eight, BitVec.xor_zero]
  rw [crcTableByte, crcByte, Config.crcIter, crcBits_eight, hhigh, crcByte, Config.crcIter]
  simp

/-- Settles O49: the two units fold byte steps that are the same function. -/
theorem tableDrivenCrcAgrees : Obligations.TableDrivenCrcAgrees := by
  intro bs
  rw [crcTable, crc16, crcFrom, show crcByte = crcTableByte from funext₂ crcByte_eq_crcTableByte]

/-! ## The residue (40_crc16 R143) -/

/-- A byte equal to the accumulator's low byte leaves its high byte. -/
theorem crcByte_lo8 (a : Word) : crcByte a (lo8 a) = a >>> 8 := by
  have h : (a ^^^ (lo8 a).setWidth 16).setWidth 8 = 0#8 := by
    simp [lo8, ← BitVec.setWidth_eq_extractLsb']
  rw [crcByte_eq_crcTableByte, crcTableByte, h]
  simp

/-- The generator run over its own accumulator, low byte first, leaves zero. -/
theorem crcFrom_crcField_self (c : Word) : crcFrom c (crcField c) = 0#16 := by
  have hhi : hi8 c = lo8 (c >>> 8) := by
    apply BitVec.eq_of_getLsbD_eq
    intro i hi
    simp [hi8, lo8, hi]
  have hgone : c >>> 8 >>> 8 = 0#16 := by
    rw [← BitVec.shiftRight_add]
    exact BitVec.ushiftRight_eq_zero (Nat.le_refl 16)
  rw [crcField, crcFrom_cons, crcByte_lo8, crcFrom_cons, crcFrom_nil, hhi, crcByte_lo8, hgone]

/-- A CRC field leaves zero exactly if it is the accumulator: their difference would not die out. -/
theorem crcFrom_crcField_eq_zero {a c : Word} : crcFrom a (crcField c) = 0 ↔ a = c := by
  constructor
  · intro h
    have hx : a = c ^^^ (c ^^^ a) := by rw [← BitVec.xor_assoc, BitVec.xor_self, BitVec.zero_xor]
    rw [hx, crcFrom_xor, crcFrom_crcField_self, BitVec.zero_xor] at h
    exact (BitVec.xor_eq_zero_iff.1 (crcFrom_zeros_eq_zero h)).symm
  · rintro rfl
    exact crcFrom_crcField_self a

/-- A checker by residue. -/
theorem validate_iff_crc16_eq_zero {f : List Byte} (h : 3 ≤ f.length) : validate f = true ↔ crc16 f = 0 := by
  have hparts : crc16 f = crcFrom (crc16 (frameBody f)) (crcField (receivedCrc f)) := by
    conv_lhs => rw [frame_parts (show 2 ≤ f.length by omega)]
    exact crcFrom_append ..
  rw [validate_eq_true, hparts, crcFrom_crcField_eq_zero]
  exact ⟨fun ⟨_, hc⟩ => hc.symm, fun hc => ⟨h, hc.symm⟩⟩

/-- Settles O48: appending runs the generator over its own value. -/
theorem crcResidueIsZero : Obligations.CrcResidueIsZero :=
  ⟨fun bs => (crcFrom_append _ bs _).trans (crcFrom_crcField_self _), fun _ => validate_iff_crc16_eq_zero⟩

/-! ## The round trip (40_crc16 R141) -/

/-- Settles O46: `validate_appendCrc`; the empty frame with its CRC has two bytes. -/
theorem crcRoundTrip : Obligations.CrcRoundTrip := ⟨fun _ => validate_appendCrc, by decide⟩

/-! ## Error detection (40_crc16 R142) -/

/-- Inverting the bits `d` of one byte changes the CRC by `d` run over as many zero bytes as follow it. -/
theorem crc16_xor_byte (p q : List Byte) (b d : Byte) :
    crc16 (p ++ (b ^^^ d) :: q) = crc16 (p ++ b :: q) ^^^ crcFrom (crcByte 0 d) (List.replicate q.length 0) := by
  have hbyte (a : Word) : crcByte a (b ^^^ d) = crcByte a b ^^^ crcByte 0 d := by
    rw [← crcByte_xor, show a ^^^ 0 = a from BitVec.xor_zero]
  simp only [crc16, crcFrom_append, crcFrom_cons, hbyte, crcFrom_xor]

/-- The byte step loses no difference. -/
theorem crcByte_zero_eq_zero {d : Byte} (h : crcByte 0 d = 0) : d = 0 := by
  have hw : 0#16 ^^^ d.setWidth 16 = 0#16 := crcBits_eq_zero h
  rw [BitVec.zero_xor] at hw
  calc d = (d.setWidth 16).setWidth 8 := by rw [BitVec.setWidth_setWidth_of_le _ (by decide), BitVec.setWidth_eq]
    _ = 0 := by rw [hw]; rfl

/-- A change inside one byte of a valid frame is detected. -/
theorem validate_set_xor {f : List Byte} {k : Nat} {b d : Byte} (hf : validate f = true) (hk : f[k]? = some b)
    (hd : d ≠ 0) : validate (f.set k (b ^^^ d)) = false := by
  obtain ⟨hlt, hb⟩ := List.getElem?_eq_some_iff.1 hk
  obtain ⟨hlen, -⟩ := validate_eq_true.1 hf
  rw [← Bool.not_eq_true, validate_iff_crc16_eq_zero (by rwa [List.length_set]),
    List.set_eq_take_append_cons_drop, if_pos hlt, crc16_xor_byte, ← hb, ← List.drop_eq_getElem_cons hlt,
    List.take_append_drop, (validate_iff_crc16_eq_zero hlen).1 hf]
  exact fun h => hd (crcByte_zero_eq_zero (crcFrom_zeros_eq_zero (BitVec.zero_xor.symm.trans h)))

theorem ofNat_two_pow_ne_zero : ∀ j < 8, BitVec.ofNat 8 (2 ^ j) ≠ 0 := by decide

/-- Settles O47: one bit is a change inside one byte. -/
theorem singleBitErrorsAreDetected : Obligations.SingleBitErrorsAreDetected := fun _ _ _ _ hf hk hj =>
  validate_set_xor hf hk (ofNat_two_pow_ne_zero _ hj)

/-! ## Values -/

/-- Settles O50: on closed bytes the equations of the bit step, the byte step and the fold run the generator. -/
theorem crcKnownValues : Obligations.CrcKnownValues := by
  unfold Obligations.CrcKnownValues
  simp [appendCrc, crcField, lo8, hi8, crc16, crcByte, crcBits, crcBit, Config.crcInit, Config.crcIter, Config.crcPoly]

end Sys2Proof.Machine
end

section
/-! PROOFS. The statements of 41_transport_port: a fault of a port operation, and the two steps of the line agent. -/

open Sys2Proof.Claims

namespace Sys2Proof.Machine

/-! ## A fault of a port operation (41_transport_port R172) -/

theorem initPhase_fault {s : State} (h : s.draw.openAnswer = .fault) : initPhase s = raise .systemCall s := by
  rw [initPhase, h]

theorem initPhase_mismatch {s : State} (h : s.draw.openAnswer = .mismatch) :
    initPhase s = raise .consistency s := by
  rw [initPhase, h]

theorem flushPhase_fault {s : State} (h : s.draw.fault = true) : flushPhase s = raise .systemCall s := if_pos h

theorem writePhase_fault {s : State} (h : s.draw.fault = true) : writePhase s = .next (raise .systemCall s) := if_pos h

theorem drainPhase_fault {s : State} (h : s.draw.fault = true) : drainPhase s = raise .systemCall s := if_pos h

theorem readPhase_fault {s : State} (h : s.draw.fault = true) : readPhase s = .next (raise .systemCall s) := if_pos h

/-- The four phases whose port operation answers a fault test it first. -/
theorem transact_fault {p : Plan} {t : BitVec 32} {s : State} (hb : s.busy = true)
    (hp : s.ph = .flush ∨ s.ph = .write ∨ s.ph = .drain ∨ s.ph = .read) (hf : s.draw.fault = true) :
    transact p t s = .next (raise .systemCall s) := by
  rcases hp with hp | hp | hp | hp
  · rw [transact_flush hb hp, flushPhase_fault hf]
  · rw [transact_write hb hp, writePhase_fault hf]
  · rw [transact_drain hb hp, drainPhase_fault hf]
  · rw [transact_read hb hp, readPhase_fault hf]

/-- Settles O27: each of these steps raises an error kind that invalidates, and `raise` of one is the ended state. -/
theorem transportFaultInvalidates : Obligations.TransportFaultInvalidates := by
  rintro i s ⟨p, hi⟩ hb
  rw [exec_of_plan hi]
  refine ⟨fun hp hf => ?port, fun hp ha => ?fault, fun hp ha => ?mismatch⟩
  case port => rw [transact_fault hb hp hf]; rfl
  case fault => rw [transact_init hb hp, initPhase_fault ha]; rfl
  case mismatch => rw [transact_init hb hp, initPhase_mismatch ha]; rfl

/-! ## The line agent (41_transport_port R168, R175) -/

/-- DELIVER with an open transport: the depth of RXQ decides whether the byte joins it, the wire shows it anyway. -/
theorem deliver_opened {s : State} (ho : s.xport = .opened) (d : Byte) :
    deliver d s = { s with rxq := if s.rxq.length < Config.rxqDepth then s.rxq ++ [d] else s.rxq
                           wire := s.wire ++ [.rx d s.now] } := by
  simp only [deliver, if_pos ho, rxqHasRoom_iff]

theorem deliver_not_opened {s : State} (ho : s.xport ≠ .opened) (d : Byte) : deliver d s = s := if_neg ho

/-- Settles O58: the two cases of `deliver_opened`, and a transport not open. -/
theorem deliveryFillsTheReceiveQueue : Obligations.DeliveryFillsTheReceiveQueue := by
  refine fun s d => ⟨fun ho hroom => ?_, fun ho hfull => ?_, fun ho => deliver_not_opened ho d⟩
  · rw [deliver_opened ho, if_pos hroom]
  · rw [deliver_opened ho, if_neg (Nat.not_lt.2 hfull)]

/-- With 8 data bits the wire shows the byte itself (R163). -/
theorem onWire_eight {cfg : Byte} (h : dataBits cfg = 8) (d : Byte) : onWire cfg d = d := if_pos h

theorem transmit_cons {s : State} {d : Byte} {q : List Byte} (ho : s.xport = .opened) (hq : s.txq = d :: q) :
    transmit s = { s with txq := q, wire := s.wire ++ [.tx (onWire s.cfgAct d) s.now] } := by
  simp only [transmit, if_pos ho, hq]

theorem transmit_not_opened {s : State} (ho : s.xport ≠ .opened) : transmit s = s := if_neg ho

theorem transmit_empty {s : State} (hq : s.txq = []) : transmit s = s := by
  simp only [transmit, hq, ite_self]

/-- Settles O59: TRANSMIT takes the head of TXQ, and `onWire_eight` says what the wire shows of it. -/
theorem transmissionIsQueueOrder : Obligations.TransmissionIsQueueOrder := by
  refine fun s => ⟨fun d q ho hq h8 => ?_, fun h => h.elim transmit_not_opened transmit_empty⟩
  rw [transmit_cons ho hq, onWire_eight h8]

end Sys2Proof.Machine
end

section
/-! PROOFS. The statements of 42_sequencer: what each phase of a command does, in the order of the phases, and then
what holds over every step: the graph, the timestamp, the gap, the idle block. -/

open Sys2Proof.Claims

namespace Sys2Proof.Machine

/-! ## START (42_sequencer R190) -/

theorem sequencerStep_busy {s : State} (hb : s.busy = true) (d : Draw) (r : Strobes) :
    sequencerStep d r s = onNext (clearCounters r) (runCommand { s with draw := d }) := if_pos hb

theorem writeCtrl_start_idle {v : BitVec 64} (hv : startBit v = true) {s : State} (hb : s.busy = false) :
    writeCtrl v s = runCommand (clearCounters (strobesOf v) s) := by simp [writeCtrl, hv, hb]

/-- Settles O7: the event at the head of the agenda leaves the registers, and so the command they decode to. -/
theorem stepRunsTheCommandTheRegistersHold : Obligations.StepRunsTheCommandTheRegistersHold := by
  refine fun s i hi => ⟨fun d r rest ha hb => ?turn, fun v rest ha hv hb => ?start⟩ <;> rw [step_of_agenda ha rfl]
  case turn => exact (sequencerStep_busy (by exact hb) d r).trans (congrArg _ (runCommand_ok hi))
  case start => exact (writeCtrl_start_idle hv (by exact hb)).trans (runCommand_ok hi)

/-- Settles O18: `start` writes what R190 lists, and nothing looks at OP before CHECK. -/
theorem startBeginsEveryCommand : Obligations.StartBeginsEveryCommand := fun _ hb =>
  ⟨takeEvent_start hb, fun _ => exec_idle hb⟩

/-! ## CHECK (42_sequencer R192 to R194) -/

theorem exec_check {i : Instr} {p : Plan} (hi : planOf i = some p) {s : State} (hr : running .check s) :
    exec i s = .next (checkPhase p s) :=
  (exec_of_plan hi s).trans (transact_check hr.1 hr.2)

/-- CHECK behind the SLAVE test: cases 4 to 6. -/
theorem checkPhase_of_slave {p : Plan} (hs : p.slave ≠ 0) (s : State) :
    checkPhase p s =
      if p.emptyWrite then endedOk s else if p.inBounds then passesCheck s else endedWith .bounds s := if_neg hs

/-- The count test of a write, the empty write being over already. -/
theorem emptyWrite_test {α : Type} (n : Word) (max : Nat) (empty pass fail : α) :
    (if decide (n = 0) = true then empty
      else if (decide (1 ≤ n.toNat) && decide (n.toNat ≤ max)) = true then pass else fail) =
      if n = 0 then empty else if n.toNat ≤ max then pass else fail := by
  by_cases hn : n = 0
  · simp [hn]
  · simp [(word_ne_zero_iff n).1 hn]

/-- Settles O20, operation by operation. -/
theorem countBoundsOfEveryOperation : Obligations.CountBoundsOfEveryOperation := by
  intro s a m n t hr ha
  have hcheck : ∀ {i p}, planOf i = some p → p.slave = a → exec i s = .next
      (if p.emptyWrite then endedOk s else if p.inBounds then passesCheck s else endedWith .bounds s) :=
    fun hi hs => (exec_check hi hr).trans (congrArg _ (checkPhase_of_slave (hs ▸ ha) s))
  refine ⟨?rdCoils, ?rdRegisters, ?wrCoil, ?wrRegister, ?wrRegisters, ?rdBytes, ?wrBytes⟩
  case rdCoils | rdRegisters | rdBytes =>
    rw [hcheck rfl rfl]
    simp [planRdCoils, planRdRegisters, planRdBytes]
  case wrCoil | wrRegister => exact (hcheck rfl rfl).trans rfl
  case wrRegisters | wrBytes => exact (hcheck rfl rfl).trans (congrArg _ (emptyWrite_test ..))

/-- Settles O21: COUNT = 0 among the counts of every operation. -/
theorem emptyWritesCompleteAtOnce : Obligations.EmptyWritesCompleteAtOnce := by
  intro s a m t hr ha hres
  obtain ⟨hcoils, hregs, -, -, hwregs, hbytes, hwbytes⟩ := countBoundsOfEveryOperation s a m 0 t hr ha
  have hkeep : { endedOk s with resLen := 0 } = endedOk s := by rw [← hres]
  exact ⟨hwregs.trans (by rw [hkeep]; rfl), hwbytes.trans (by rw [hkeep]; rfl), hcoils, hregs, hbytes⟩

/-- A legal OP names its command (30_encoding R94). -/
theorem decodeOperands_legal {op : Byte} (h : op ∈ [0x01, 0x03, 0x05, 0x06, 0x10, 0x41, 0x42, 0xF0, 0xF1])
    (slave : Byte) (maddr count value : Word) (timeout : BitVec 32) :
    ∃ i, decodeOperands op slave maddr count value timeout = .ok i ∧ i.opcode = op := by
  simp only [List.mem_cons, List.not_mem_nil, or_false] at h
  rcases h with rfl | rfl | rfl | rfl | rfl | rfl | rfl | rfl | rfl <;> exact ⟨_, rfl, rfl⟩

/-- What CHECK tests of a Modbus operation, in terms of the registers that name it: cases 3 to 5 (42_sequencer R192). -/
theorem planOf_decodeOperands {op slave : Byte} {maddr count value : Word} {timeout : BitVec 32} {i : Instr} {p : Plan}
    (hd : decodeOperands op slave maddr count value timeout = .ok i) (hi : planOf i = some p) :
    op ∉ [0xF0, 0xF1] ∧ p.slave = slave ∧ (p.emptyWrite = true ↔ op ∈ [0x10, 0x42] ∧ count = 0) ∧
    (p.inBounds = true ↔ ¬ countOutside op count.toNat) := by
  by_cases hop : op ∈ [0x01, 0x03, 0x05, 0x06, 0x10, 0x41, 0x42, 0xF0, 0xF1]
  · simp only [List.mem_cons, List.not_mem_nil, or_false] at hop
    rcases hop with rfl | rfl | rfl | rfl | rfl | rfl | rfl | rfl | rfl <;> cases hd <;> cases hi <;>
      simp [planRdCoils, planRdRegisters, planWrCoil, planWrRegister, planWrRegisters, planRdBytes, planWrBytes,
        countOutside]
  · rw [decodeOperands_illegal hop] at hd
    cases hd

/-- Settles O19: an OP outside the nine; the tests of a Modbus operation's plan; the bound of a CRC unit command. -/
theorem checkRunsItsSixTestsInOrder : Obligations.CheckRunsItsSixTestsInOrder := by
  intro s hr
  by_cases hop : s.op ∈ [0x01, 0x03, 0x05, 0x06, 0x10, 0x41, 0x42, 0xF0, 0xF1]
  · obtain ⟨i, hd, hcode⟩ := decodeOperands_legal hop s.slave s.maddr s.count s.value s.timeoutMs
    rw [if_neg (not_not.2 hop), runCommand_ok ((decode_commandWord s).trans hd)]
    rcases planOf_cases i with ⟨p, hi⟩ | ⟨n, rfl⟩ | ⟨n, rfl⟩
    · obtain ⟨hcrc, hslave, hempty, hbounds⟩ := planOf_decodeOperands hd hi
      rw [if_neg hcrc, exec_check hi hr, checkPhase]
      simp only [hslave, hempty, hbounds, ite_not]
      rfl
    all_goals
      replace hcode : s.op = _ := hcode.symm
      rw [hcode] at hd
      cases hd
      rw [if_pos (by rw [hcode]; simp [Instr.opcode])]
      exact crcCommand_check hr.1 hr.2
  · rw [if_pos hop]
    exact (illegalOpEndsInBoundsError s hop).2 hr

/-! ## INIT and FLUSH (42_sequencer R195 to R197) -/

/-- A sequencer step enters INIT from CHECK only, and only without an open transport. -/
theorem commandStep_enters_init {i : Instr} {s t : State} (h : CommandStep i s t) (hs : s.ph ≠ .init)
    (ht : t.ph = .init) : s.ph = .check ∧ modbus i ∧ accepted i = true ∧ s.xport ≠ .opened := by
  cases h with
  | checkPasses _ hp p hi hslave he hn =>
    exact ⟨hp, ⟨p, hi⟩, accepted_of_plan hi hslave he hn, fun ho => by simp [ho] at ht⟩
  | noRule | waits | readByte => exact absurd ht hs
  | _ => cases ht

/-- CHECK lets an accepted Modbus operation pass. -/
theorem checkPhase_accepted {i : Instr} {p : Plan} (hi : planOf i = some p) (ha : accepted i = true) (s : State) :
    checkPhase p s = passesCheck s := by
  simp only [accepted, emptyWrite, hi, Bool.and_eq_true, Bool.not_eq_true'] at ha
  obtain ⟨hw, he⟩ := ha
  have hfits := planFits hi hw
  rw [checkPhase_of_slave hfits.slave, he, if_neg (by decide), if_pos (hfits.passes he)]

theorem eventStep_enters_init {s t : State} {e : Event} (h : EventStep s e t) (hs : s.ph ≠ .init)
    (ht : t.ph = .init) : s.ph = .check ∧ s.xport ≠ .opened := by
  cases h with
  | command d r i u _ _ hu =>
    obtain ⟨hp, -, -, hx⟩ := commandStep_enters_init (exec_step hu) hs ht
    exact ⟨hp, hx⟩
  | writesOperand _ _ _ _ hframe => rw [hframe] at ht; exact absurd ht hs
  | line a => rw [lineStep_eq] at ht; exact absurd ht hs
  | starts | resets | illegal => cases ht
  | _ => exact absurd ht hs

/-- Settles O24: the way into INIT; CHECK of an accepted command; the invariant. -/
theorem initIsEnteredExactlyWithoutATransport : Obligations.InitIsEnteredExactlyWithoutATransport := by
  refine ⟨fun i s t h hb hs => ⟨commandStep_enters_init (exec_step h) hs, ?passes⟩,
    fun s t _ h => eventStep_enters_init (s := afterEvent s) (step_event h), fun s h hp => h.portOpen ?port⟩
  case passes =>
    rintro ⟨hp, ⟨p, hi⟩, ha, hx⟩
    rw [exec_check hi ⟨hb, hp⟩, checkPhase_accepted hi ha] at h
    injection h with h
    rw [← h]
    exact if_neg hx
  case port => rcases hp with hp | hp | hp | hp <;> rw [hp] <;> rfl

/-- Settles O25: INIT by OPEN's outcome. -/
theorem initOpensOrInvalidates : Obligations.InitOpensOrInvalidates := by
  rintro i s ⟨p, hi⟩ ⟨hb, hp⟩
  obtain ⟨-, hfault, hmismatch⟩ := transportFaultInvalidates i s ⟨p, hi⟩ hb
  refine ⟨fun ho => ?_, hfault hp, hmismatch hp⟩
  rw [exec_of_plan hi, transact_init hb hp, initPhase, ho]
  rfl

/-- Settles O26: FLUSH by the port's answer. -/
theorem flushEmptiesBothQueues : Obligations.FlushEmptiesBothQueues := by
  rintro i s ⟨p, hi⟩ ⟨hb, hp⟩
  obtain ⟨hfault, -⟩ := transportFaultInvalidates i s ⟨p, hi⟩ hb
  refine ⟨fun hf => ?_, hfault (.inl hp)⟩
  rw [exec_of_plan hi, transact_flush hb hp, flushPhase, hf]
  rfl

/-! ## BUILD (42_sequencer R198 to R200) -/

/-- BUILD of a plan whose request and reply fit their buffers, byte by byte. -/
theorem builds_of_plan {i : Instr} {p : Plan} (hi : planOf i = some p) {s : State} (hr : running .build s)
    {data : List Byte} (hd : readRange .wdata 0 p.dataLen s = some data) (hrep : p.replyLen ≤ 256)
    (hreq : p.fields.length + p.dataLen + 4 ≤ 256) : builds i s (p.head data) p.replyLen := by
  obtain ⟨hb, hp⟩ := hr
  have hlen : (p.request data).length = (p.head data).length + 2 := appendCrc_length _
  have hq : (p.request data).length ≤ Config.maxAdu := by rwa [request_length, readRange_length hd]
  refine ⟨_, (exec_of_plan hi s).trans ((transact_build hb hp).trans (buildPhase_eq hd hrep hq)), ?_, ?_,
    toNat_ofNat_of_le_maxAdu hrep, rfl, rfl, rfl, fun j hj => ?_⟩
  · rw [← hlen]
    exact readRange_writeRange (sp := .req) s hq
  · rw [← hlen]
    exact toNat_ofNat_of_le_maxAdu hq
  · exact readByte_setRange_outside s .req (.inr (by omega))

/-- The value field of wrCoil (30_encoding R104, decision D22). -/
theorem be16_coilValue (v : Word) : be16 (coilValue v) = [if v ≠ 0 then 0xFF else 0x00, 0x00] := by
  by_cases hv : v = 0
  · rw [coilValue, if_pos hv, if_neg (not_not.2 hv)]; rfl
  · rw [coilValue, if_neg hv, if_pos hv]; rfl

/-- Settles O28, operation by operation: the lengths of the reply and of the request. -/
theorem buildOfEveryRequest : Obligations.BuildOfEveryRequest := by
  intro s a m n t hr
  have hnone : readRange .wdata 0 0 s = some [] := rfl
  refine ⟨fun hn => ?rdCoils, fun hn => ?rdRegisters, ?wrCoil, ?wrRegister, fun hn => ?rdBytes,
    fun data hn hd => ?wrRegisters, fun data hn hd => ?wrBytes⟩
  case rdCoils =>
    exact builds_of_plan (p := planRdCoils a m n) rfl hr hnone (show 5 + (n.toNat + 7) / 8 ≤ 256 by omega)
      (show 4 + 0 + 4 ≤ 256 by omega)
  case rdRegisters =>
    exact builds_of_plan (p := planRdRegisters a m n) rfl hr hnone (show 5 + 2 * n.toNat ≤ 256 by omega)
      (show 4 + 0 + 4 ≤ 256 by omega)
  case wrCoil =>
    have hbuilds : builds (.wrCoil a m n t) s ([a, 0x05, hi8 m, lo8 m] ++ be16 (coilValue n)) 8 :=
      builds_of_plan (p := planWrCoil a m n) rfl hr hnone (show 8 ≤ 256 by omega) (show 4 + 0 + 4 ≤ 256 by omega)
    rwa [be16_coilValue] at hbuilds
  case wrRegister =>
    exact builds_of_plan (p := planWrRegister a m n) rfl hr hnone (show 8 ≤ 256 by omega)
      (show 4 + 0 + 4 ≤ 256 by omega)
  case rdBytes =>
    exact builds_of_plan (p := planRdBytes a m n) rfl hr hnone (show 7 + n.toNat ≤ 256 by omega)
      (show 3 + 0 + 4 ≤ 256 by omega)
  case wrRegisters =>
    exact builds_of_plan (p := planWrRegisters a m n) rfl hr hd (show 8 ≤ 256 by omega)
      (show 5 + 2 * n.toNat + 4 ≤ 256 by omega)
  case wrBytes =>
    exact builds_of_plan (p := planWrBytes a m n) rfl hr hd (show 7 + n.toNat ≤ 256 by omega)
      (show 3 + n.toNat + 4 ≤ 256 by omega)

/-! ## GAPW and GAPR (42_sequencer R203 to R206, R215) -/

theorem gapStep_eq (enter : State → State) (s : State) :
    gapStep enter s =
      if s.tsValid = false then enter s
      else if s.now ≤ s.ts then endedWith .timing s
      else if s.ts + 3000 ≤ s.now then enter s else s := by
  simp only [gapStep, Bool.not_eq_true']
  rfl

/-- Settles O29: both phases take the gap step. -/
theorem gapStepFourCases : Obligations.GapStepFourCases := by
  rintro i s ⟨p, hi⟩ hb
  rw [exec_of_plan hi]
  refine ⟨fun hp => ?_, fun hp => ?_⟩
  · rw [transact_gapw hb hp, gapwPhase, gapStep_eq]
  · rw [transact_gapr hb hp, gaprPhase, gapStep_eq]
    rfl

/-- Settles O10: two ways a step can go enter WRITE or READ from a gap; the others begin in another phase, wait, or end
in IDLE. -/
theorem noWriteOrReadWithinTheGap : Obligations.NoWriteOrReadWithinTheGap := by
  intro i s t h hb hedge
  cases exec_step h with
  | gapwPasses _ _ hg | gaprPasses _ _ hg => exact ⟨hg, rfl, rfl⟩
  | noRule | waits => rcases hedge with ⟨hp, ht⟩ | ⟨hp, ht⟩ <;> cases hp.symm.trans ht
  | _ => simp_all

/-! ## WRITE and DRAIN (42_sequencer R208, R209) -/

/-- WRITE without a fault, `bs` being the bytes the port accepts. -/
theorem writePhase_eq {s : State} (hf : s.draw.fault = false) {bs : List Byte}
    (hbs : readRange .req 0 (min s.draw.accepts s.reqLen.toNat) s = some bs) :
    writePhase s = .next
      (if bs.length < s.reqLen.toNat then raise .request (stamp (acceptBytes bs s))
       else { stamp (acceptBytes bs s) with ph := .drain }) := by
  rw [writePhase, if_neg (by simp [hf]), withRange_eq hbs]
  simp only
  split <;> rfl

/-- Settles O30: the port accepts the smaller of the drawn number and REQ_LEN. -/
theorem writeHandsOverTheFrame : Obligations.WriteHandsOverTheFrame := by
  rintro i s ⟨p, hi⟩ ⟨hb, hp⟩
  obtain ⟨hfault, -⟩ := transportFaultInvalidates i s ⟨p, hi⟩ hb
  refine ⟨hfault (.inr (.inl hp)), fun bs hf hbs => ?_⟩
  have hlen := readRange_length hbs
  rw [exec_of_plan hi, transact_write hb hp, writePhase_eq hf hbs]
  by_cases hshort : s.draw.accepts < s.reqLen.toNat
  · rw [Nat.min_eq_left (Nat.le_of_lt hshort)] at hlen
    rw [hlen, if_pos hshort, if_pos hshort, ← hlen]
    rfl
  · rw [Nat.min_eq_right (Nat.le_of_not_lt hshort)] at hlen
    rw [hlen, if_neg hshort, if_neg (Nat.lt_irrefl _), ← hlen]
    rfl

/-- Settles O31: DRAIN by the port's answer, then by TXQ. -/
theorem drainWaitsForTheLine : Obligations.DrainWaitsForTheLine := by
  rintro i s ⟨p, hi⟩ ⟨hb, hp⟩
  obtain ⟨hfault, -⟩ := transportFaultInvalidates i s ⟨p, hi⟩ hb
  refine ⟨hfault (.inr (.inr (.inl hp))), fun hf => ?_⟩
  rw [exec_of_plan hi, transact_drain hb hp, drainPhase, if_neg (by simp [hf])]
  rfl

/-! ## READ (42_sequencer R216 to R218) -/

/-- READ ends when the reply is whole or the deadline has passed. -/
theorem readEnds_iff (s : State) : readEnds s = true ↔ s.rxn = s.repLen ∨ s.t0 + s.dl ≤ s.now := by
  simp [readEnds]

/-- The byte step is taken when the end step is not enabled or not the one the draw prefers (log 4). -/
theorem readPhase_takes {s : State} (hf : s.draw.fault = false) {d : Byte} {q : List Byte} (hq : s.rxq = d :: q)
    (hl : s.rxn.toNat < s.repLen.toNat) (hc : s.now < s.t0 + s.dl ∨ s.draw.takesByte = true) :
    readPhase s = takeByte d q s := by
  have hlt : s.rxn < s.repLen := hl
  have hchoice : readEnds s = false ∨ s.draw.takesByte = true := by
    refine hc.imp_left fun hnow => ?_
    rw [← Bool.not_eq_true, readEnds_iff]
    rintro (hfull | hexp)
    · rw [hfull] at hl; omega
    · omega
  rw [readPhase, if_neg (by simp [hf]), hq]
  simp [hlt, hchoice]

/-- Settles O32: the byte step stores the head of RXQ where RXN points. -/
theorem readTakesOneByte : Obligations.ReadTakesOneByte := by
  rintro i s d q ⟨p, hi⟩ ⟨hb, hp⟩ hf hq hl hrep hc
  refine ⟨_, (exec_of_plan hi s).trans ((transact_read hb hp).trans ((readPhase_takes hf hq hl hc).trans
    (takeByte_eq (Nat.lt_of_lt_of_le hl hrep)))), ?_, ?_, rfl, fun j hj => ?_⟩
  · exact (readByte_setRange s .rep s.rxn.toNat s.rxn.toNat [d]).trans (by simp)
  · have hone : (1 : BitVec 9).toNat = 1 := rfl
    simp only [BitVec.toNat_add, hone]
    omega
  · exact readByte_setRange_outside s .rep (by rw [List.length_singleton]; omega)

/-- The end step is taken when the byte step is not enabled or not the one the draw prefers (log 4). -/
theorem readPhase_ends {s : State} (hf : s.draw.fault = false) (he : readEnds s = true)
    (hc : s.rxq = [] ∨ s.repLen.toNat ≤ s.rxn.toNat ∨ s.draw.takesByte = false) :
    readPhase s = .next (endRead s) := by
  rw [readPhase, if_neg (by simp [hf])]
  split
  · next d q hq =>
    have hnot : ¬ (s.rxn < s.repLen ∧ s.draw.takesByte = true) := by
      rintro ⟨hlt, htakes⟩
      have hlt : s.rxn.toNat < s.repLen.toNat := hlt
      rcases hc with hempty | hfull | hends
      · rw [hq] at hempty; cases hempty
      · omega
      · rw [htakes] at hends; cases hends
    simp [he, hnot]
  · rw [if_pos he]

/-- Settles O33: `endRead` is what R217 writes. -/
theorem readEndsFullOrExpired : Obligations.ReadEndsFullOrExpired := by
  rintro i s ⟨p, hi⟩ ⟨hb, hp⟩ hf he hc
  rw [exec_of_plan hi, transact_read hb hp, readPhase_ends hf ((readEnds_iff s).2 he) hc]
  rfl

/-- Settles O34: with nothing to take and nothing to end READ waits; of the errors, the end step alone raises
TimeoutError. -/
theorem timeoutFloor : Obligations.TimeoutFloor := by
  refine ⟨?waits, fun i s t h hb herr hrep ht => ?timeout⟩
  case waits =>
    rintro i s ⟨p, hi⟩ ⟨hb, hp⟩ hf hq hn hnow
    have hends : ¬ readEnds s = true := by
      rw [readEnds_iff]
      exact not_or.2 ⟨hn, Nat.not_le.2 hnow⟩
    rw [exec_of_plan hi, transact_read hb hp, readPhase, if_neg (by simp [hf]), hq]
    exact if_neg hends
  case timeout =>
    cases exec_step h with
    | readTimeout _ hp _ he hn =>
      refine ⟨hp, hn, ((readEnds_iff s).1 he).resolve_left fun hfull => hrep ?_⟩
      rw [← hfull, hn]
    | initFails _ _ k hk => rcases hk with rfl | rfl <;> cases ht
    | starts | checkFails | portFault | gapEarly | writesShort | crcShort | crcFails | vidFails | checkEmpty
    | extractsNothing | extracts | crcop => cases ht
    | vidPasses => rw [noteException_eq] at ht; cases herr.symm.trans ht
    | _ => cases herr.symm.trans ht

/-- Settles O35: the two draws, one for each of the enabled steps. -/
theorem deadlineRaceAdmitsBothOrders : Obligations.DeadlineRaceAdmitsBothOrders := by
  intro i s d q hm hr hq hl hrep hexp
  constructor
  · obtain ⟨t, ht, -, -, hframe, -⟩ := readTakesOneByte i
      { s with draw := { s.draw with fault := false, takesByte := true } } d q hm hr rfl hq hl hrep (.inr rfl)
    refine ⟨t, ht, ?_, ?_, ?_⟩ <;> rw [hframe]
    exact hr.2
  · have hends := readEndsFullOrExpired i { s with draw := { s.draw with fault := false, takesByte := false } } hm hr
      rfl (.inr hexp) (.inr (.inr rfl))
    refine ⟨_, hends, ?_⟩
    by_cases hn : s.rxn = 0
    · rw [endsRead, if_pos hn, if_pos hn]
      exact ⟨rfl, hq, rfl⟩
    · rw [endsRead, if_neg hn, if_neg hn]
      exact ⟨rfl, hq, rfl⟩

/-! ## VCRC and CRCOP (42_sequencer R222, R231) -/

/-- The CRC field of a frame read from a buffer is its last two bytes (40_crc16 R140). -/
theorem receivedCrc_readRange {sp : Space} {n : Nat} {s : State} {f : List Byte} (h : readRange sp 0 n s = some f)
    (hn : 2 ≤ n) : receivedCrc f = cat8 (readByte sp (n - 1) s) (readByte sp (n - 2) s) := by
  have hlen := readRange_length h
  have hbyte : ∀ k (hk : k < f.length), f[k] = readByte sp k s := fun k hk => by
    have := readRange_getElem? h (hlen ▸ hk)
    rwa [List.getElem?_eq_getElem hk, Nat.zero_add, Option.some_inj] at this
  have hlast : f.drop (n - 2) = [readByte sp (n - 2) s, readByte sp (n - 1) s] := by
    rw [List.drop_eq_getElem_cons (by omega), List.drop_eq_getElem_cons (by omega), List.drop_of_length_le (by omega),
      hbyte, hbyte, show n - 2 + 1 = n - 1 by omega]
  rw [receivedCrc, hlen, hlast]

section
variable {sp : Space} {n : Nat} {s : State} {f : List Byte} (h : readRange sp 0 n s = some f)
include h

/-- The checker over fewer than three bytes of a buffer computes nothing (40_crc16 R140). -/
theorem checkFrame_short (hn : n < 3) (ok : State → State) (u : State) : checkFrame f ok u = raise .crc u := by
  rcases checkFrame_cases f ok u with ⟨-, e⟩ | ⟨hlong, -⟩
  · exact e
  · rw [readRange_length h] at hlong; omega

/-- The checker over three bytes of a buffer or more compares their last two with the CRC of the others. -/
theorem checkFrame_long (hn : 3 ≤ n) (ok : State → State) (u : State) :
    checkFrame f ok u =
      (let c := crc16 (f.take (n - 2))
       if cat8 (readByte sp (n - 1) s) (readByte sp (n - 2) s) = c then ok { u with crcAcc := c, crcOut := c }
       else raise .crc { u with crcAcc := c, crcOut := c }) := by
  have hlen := readRange_length h
  have hbody : frameBody f = f.take (n - 2) := by rw [frameBody, hlen]
  rw [← receivedCrc_readRange h (by omega), ← hbody]
  rcases checkFrame_cases f ok u with ⟨hshort, -⟩ | ⟨-, ⟨hc, e⟩ | ⟨hc, e⟩⟩
  · omega
  · rw [e]; exact (if_pos hc).symm
  · rw [e]; exact (if_neg hc).symm

end

theorem exec_vcrc {i : Instr} (hm : modbus i) {s : State} (hr : running .vcrc s) {f : List Byte}
    (hf : readRange .rep 0 s.rxn.toNat s = some f) :
    exec i s = .next (checkFrame f (fun t => { t with ph := .vid }) s) := by
  obtain ⟨p, hi⟩ := hm
  obtain ⟨hb, hp⟩ := hr
  rw [exec_of_plan hi, transact_vcrc hb hp, vcrcPhase, withRange_eq hf]

/-- Settles O36: the checker over REP. -/
theorem vcrcChecksTheReceivedPrefix : Obligations.VcrcChecksTheReceivedPrefix := by
  refine fun i s f hm hr hf => ⟨fun hn => ?short, fun hn => ?long⟩ <;> rw [exec_vcrc hm hr hf]
  case short => rw [checkFrame_short hf hn]; rfl
  case long => rw [checkFrame_long hf hn]; rfl

/-- Settles O43: the generator over WDATA, and the checker over it. -/
theorem crcopComputesOrValidates : Obligations.CrcopComputesOrValidates := by
  rintro s n bs ⟨hb, hp⟩ hbs
  have hcrcop : ∀ run, crcCommand n run s = .next (run bs s) := fun run =>
    (crcCommand_crcop hb hp).trans (withRange_eq hbs _)
  have hvalidate : exec (.crcValidate n) s = .next (checkFrame bs completeOk s) := hcrcop validateStep
  refine ⟨hcrcop computeStep, fun hn => ?short, fun hn => ?long⟩ <;> rw [hvalidate]
  case short => rw [checkFrame_short hbs hn]; rfl
  case long => rw [checkFrame_long hbs hn]; rfl

/-! ## VID (42_sequencer R223 to R226) -/

theorem exec_vid {i : Instr} {p : Plan} (hi : planOf i = some p) {s : State} (hr : running .vid s) :
    exec i s = vidPhase p s :=
  (exec_of_plan hi s).trans (transact_vid hr.1 hr.2)

/-- VID of a write compares the length and the bytes of the echo. -/
theorem vidEcho_eq {len : Nat} {s : State} {got sent : List Byte} (hgot : readRange .rep 0 len s = some got)
    (hsent : readRange .req 0 len s = some sent) :
    vidEcho len s = .next
      (if s.rxn = s.repLen ∧ got = sent then { noteException s with ph := .extract }
       else raise .reply (noteException s)) := by
  rw [vidEcho, withRange_eq hgot, withRange_eq hsent]
  by_cases hn : s.rxn = s.repLen
  · by_cases he : got = sent <;> simp [hn, he]
  · simp [hn]

/-- Settles O37: the echo's length, operation by operation. -/
theorem writesAreAcceptedByTheirEcho : Obligations.WritesAreAcceptedByTheirEcho := by
  intro i s len got sent hr hwrite hgot hsent
  obtain ⟨p, hi, hecho⟩ : ∃ p, planOf i = some p ∧ p.echo = some len := by
    rcases hwrite with ⟨a, m, v, t, rfl, rfl⟩ | ⟨a, m, v, t, rfl, rfl⟩ | ⟨a, m, n, t, rfl, rfl⟩ |
      ⟨a, m, n, t, rfl, -, rfl⟩ <;> exact ⟨_, rfl, rfl⟩
  rw [exec_vid hi hr, vidPhase, hecho]
  exact vidEcho_eq hgot hsent

/-- Settles O38: a read has no echo. -/
theorem readsAreAcceptedByTheirIdentity : Obligations.ReadsAreAcceptedByTheirIdentity := by
  intro i s hr hread
  obtain ⟨p, hi, hecho⟩ : ∃ p, planOf i = some p ∧ p.echo = none := by
    rcases hread with ⟨a, m, n, t, rfl⟩ | ⟨a, m, n, t, rfl⟩ | ⟨a, m, n, t, rfl⟩ <;> exact ⟨_, rfl, rfl⟩
  rw [exec_vid hi hr, vidPhase, hecho]
  rfl

/-- VID refuses a reply of another length than the predetermined one, of a write and of a read (42_sequencer R225). -/
theorem vidPhase_of_length_ne (p : Plan) {s : State} (hn : s.rxn ≠ s.repLen) :
    vidPhase p s = .next (raise .reply (noteException s)) := by
  cases he : p.echo with
  | some len => simp only [vidPhase, he, vidEcho, if_pos hn]
  | none => simp only [vidPhase, he, vidIdentity, hn, and_false, if_false]

/-- Settles O39: five bytes are not the predetermined length. -/
theorem exceptionFramesAreReported : Obligations.ExceptionFramesAreReported := by
  rintro i s ⟨p, hi⟩ hr hlong hexc
  have hnote : noteException s = { s with exc := true, excCode := readByte .rep 2 s } := if_pos hexc
  have hn : s.rxn ≠ s.repLen := fun hfull => by
    obtain ⟨h5, -⟩ := hexc
    rw [← hfull, h5] at hlong
    exact absurd hlong (by decide)
  rw [exec_vid hi hr, vidPhase_of_length_ne p hn, hnote]
  rfl

/-! ## EXTRACT (42_sequencer R227 to R229) -/

/-- What EXTRACT stores it stores from index 0 of RDATA on, and nothing else there. -/
theorem extracts_of_setRange {i : Instr} {s : State} {bs : List Byte} (hl : bs.length ≤ Config.rdataDepth)
    (h : exec i s = .next { completeOk s with rdata := s.rdata.setRange 0 bs, resLen := BitVec.ofNat 11 bs.length }) :
    extracts i s bs :=
  ⟨_, h, readRange_writeRange (sp := .rdata) s hl, rfl,
    fun _ hj => readByte_setRange_outside s .rdata (.inr (by omega))⟩

/-- Settles O40: the flags of the reply. -/
theorem extractOfCoils : Obligations.ExtractOfCoils := by
  intro s a m n t hr hn
  have hlen := replyCoils_length n.toNat s
  refine extracts_of_setRange (bs := replyCoils n.toNat s) (hlen.trans_le hn) ?_
  rw [hlen]
  exact exec_rdCoils_extract hr a m t hn

/-- EXTRACT of bytes of REP. -/
theorem extracts_bytes {i : Instr} {p : Plan} (hi : planOf i = some p) {off n : Nat} (hres : p.result = .bytes off n)
    {s : State} (hr : running .extract s) (hn : off + n ≤ 256) :
    extracts i s ((List.range n).map fun k => readByte .rep (off + k) s) := by
  obtain ⟨hb, hp⟩ := hr
  have hl : ((List.range n).map fun k => readByte .rep (off + k) s).length ≤ Config.rdataDepth := by
    have hdepth : 256 ≤ Config.rdataDepth := by decide
    rw [List.length_map, List.length_range]
    omega
  refine extracts_of_setRange hl ?_
  rw [exec_of_plan hi, transact_extract hb hp, extractPhase, hres, ← deliverResult_eq hl]
  exact withRange_eq (readRange_eq (sp := .rep) s hn) _

/-- Settles O41: the bytes of the words are those of the reply from index 3 on. -/
theorem extractOfRegisters : Obligations.ExtractOfRegisters := by
  intro s a m n t hr hn
  obtain ⟨u, hu, hread, hframe, hrest⟩ :=
    extracts_bytes (i := .rdRegisters a m n t) (off := 3) (n := 2 * n.toNat) rfl rfl hr (by omega)
  rw [List.length_map, List.length_range] at hread hframe hrest
  have hbyte : ∀ k, k < 2 * n.toNat → readByte .rdata k u = readByte .rep (3 + k) s := fun k hk => by
    have := readRange_getElem? hread hk
    rw [Nat.zero_add] at this
    simpa [hk] using this.symm
  refine ⟨u, hu, fun k hk => ⟨hbyte _ (by omega), ?_⟩, hframe, hrest⟩
  rw [hbyte _ (by omega), show 3 + (2 * k + 1) = 4 + 2 * k by omega]

/-- Settles O42: rdBytes from index 5 of REP; a write has nothing to extract. -/
theorem extractOfBytesAndOfWrites : Obligations.ExtractOfBytesAndOfWrites := by
  intro s a m n t hr
  have hwrite : ∀ {i p}, planOf i = some p → p.result = .nothing → exec i s = .next (endedOk s) := fun hi hres => by
    rw [exec_of_plan hi, transact_extract hr.1 hr.2, extractPhase, hres]
    rfl
  exact ⟨fun hn => extracts_bytes rfl rfl hr (by omega), hwrite rfl rfl, hwrite rfl rfl, hwrite rfl rfl, hwrite rfl rfl⟩

/-! ## The phase graph (42_sequencer R191) -/

theorem ph_of_not_busy {s : State} (h : BlockInv s) (hb : s.busy = false) : s.ph = .idle := by
  by_contra hp
  rw [h.busyPhase.2 hp] at hb
  cases hb

/-- In a state that meets the invariant a phase of the running command has a rule (log 5). -/
theorem runningPhase_has_rule {s : State} (h : BlockInv s) (hb : s.busy = true) {i : Instr}
    (hi : decode (commandWord s) = .ok i) : ¬ (s.ph = .idle ∨ ((∃ p, planOf i = some p) ∧ s.ph = .crcop) ∨
      (planOf i = none ∧ s.ph ≠ .check ∧ s.ph ≠ .crcop)) := by
  have hidle := h.busyPhase.1 hb
  have hcrc : s.ph ≠ .check → (s.ph = .crcop ↔ planOf i = none) := fun hc => by
    obtain ⟨j, hj, -, hcrc⟩ := h.command (pastCheck_of_ne hidle hc)
    cases hi.symm.trans hj
    exact hcrc
  rintro (hp | ⟨⟨p, hpl⟩, hp⟩ | ⟨hpl, hc, hp⟩)
  · exact hidle hp
  · cases hpl.symm.trans ((hcrc (by simp [hp])).1 hp)
  · exact hp ((hcrc hc).2 hpl)

theorem phaseMove_commandStep {i : Instr} {s t : State} (h : BlockInv s) (hb : s.busy = true)
    (hi : decode (commandWord s) = .ok i) (hstep : CommandStep i s t) : phaseMove s t := by
  cases hstep with
  | starts hn => rw [hb] at hn; cases hn
  | noRule _ hp => exact absurd hp (runningPhase_has_rule h hb hi)
  | waits _ hp => exact .inr (.inr ⟨rfl, hp⟩)
  | readByte _ hp => exact .inr (.inr ⟨rfl, by rw [hp]; rfl⟩)
  | checkPasses _ hp => refine .inl ?_; simp only [hp]; split <;> rfl
  | checkCrc _ hp | initOpens _ hp | flushes _ hp | builds _ hp | gapwPasses _ hp | gaprPasses _ hp | writesAll _ hp
  | drained _ hp | readDone _ hp | vcrcPasses _ hp | vidPasses _ hp => refine .inl ?_; simp only [hp]; rfl
  | checkFails _ hp | checkEmpty _ hp | writesShort _ hp | readTimeout _ hp | vidFails _ hp | extractsNothing _ hp
  | extracts _ hp | crcop _ hp => exact .inr (.inl ⟨rfl, rfl, rfl, by rw [hp]; rfl⟩)
  | initFails _ hp k hk =>
    exact .inr (.inl ⟨rfl, rfl, rfl, by rcases hk with rfl | rfl <;> rw [hp] <;> rfl⟩)
  | gapEarly _ hp | crcShort _ hp | crcFails _ hp =>
    exact .inr (.inl ⟨rfl, rfl, rfl, by rcases hp with hp | hp <;> rw [hp] <;> rfl⟩)
  | portFault _ hp =>
    exact .inr (.inl ⟨rfl, rfl, rfl, by rcases hp with hp | hp | hp | hp <;> rw [hp] <;> rfl⟩)

theorem phaseMove_eventStep {s t : State} {e : Event} (h : BlockInv s) (hstep : EventStep s e t) :
    t.ph = s.ph ∨ phaseMove s t ∨ (e = .reset ∧ t.ph = .idle) := by
  cases hstep with
  | starts _ _ hb => exact .inr (.inl (.inl (by rw [ph_of_not_busy h hb]; rfl)))
  | command d r i u hb hi hu =>
    have hd : BlockInv { s with draw := d } := blockInv_congr h rfl rfl rfl
    have hmove := phaseMove_commandStep hd hb hi (exec_step hu)
    exact .inr (.inl hmove)
  | illegal _ _ _ _ _ hp => exact .inr (.inl (.inr (.inl ⟨rfl, rfl, rfl, by rw [hp]; rfl⟩)))
  | resets => exact .inr (.inr ⟨rfl, rfl⟩)
  | writesOperand _ _ _ _ hframe => rw [hframe]; exact .inl rfl
  | line a => rw [lineStep_eq]; exact .inl rfl
  | _ => exact .inl rfl

/-- Settles O8: what the pending event does to PH, taking it off the agenda doing nothing. -/
theorem phaseMovesOnlyAlongTheGraph : Obligations.PhaseMovesOnlyAlongTheGraph := fun s h =>
  ⟨fun _ hs => phaseMove_eventStep (s := afterEvent s) (blockInv_congr h rfl rfl rfl) (step_event hs),
    fun _ _ hb hi hs => phaseMove_commandStep h hb hi (exec_step hs)⟩

/-! ## The timestamp (42_sequencer R230) -/

/-- What a sequencer step of a command does to TS. -/
theorem timestamp_commandStep {i : Instr} {s t : State} (h : CommandStep i s t) :
    (t.ts = s.ts ∧ t.tsValid = s.tsValid) ∨
    (t.ts = s.now ∧ t.tsValid = true ∧ s.busy = true ∧ s.draw.fault = false ∧
      (s.ph = .write ∨ (s.ph = .drain ∧ t.ph = .gapr) ∨ (s.ph = .read ∧ t.ph ≠ .read))) := by
  cases h with
  | writesShort hb hp hf | writesAll hb hp hf => exact .inr ⟨rfl, rfl, hb, hf, .inl hp⟩
  | drained hb hp hf => exact .inr ⟨rfl, rfl, hb, hf, .inr (.inl ⟨hp, rfl⟩)⟩
  | readTimeout hb hp hf | readDone hb hp hf => exact .inr ⟨rfl, rfl, hb, hf, .inr (.inr ⟨hp, by simp⟩)⟩
  | vidFails | vidPasses => rw [noteException_eq]; exact .inl ⟨rfl, rfl⟩
  | _ => exact .inl ⟨rfl, rfl⟩

theorem writePhase_stamps {s t : State} (hf : s.draw.fault = false) (h : writePhase s = .next t) :
    t.ts = s.now ∧ t.tsValid = true := by
  rcases writePhase_next h with ⟨hfault, -⟩ | ⟨-, bs, -, ⟨-, rfl⟩ | ⟨-, rfl⟩⟩
  · rw [hf] at hfault; cases hfault
  all_goals exact ⟨rfl, rfl⟩

theorem drainPhase_stamps {s : State} (hf : s.draw.fault = false) (hp : s.ph = .drain)
    (hleaves : (drainPhase s).ph = .gapr) : (drainPhase s).ts = s.now ∧ (drainPhase s).tsValid = true := by
  rcases drainPhase_cases s with ⟨hfault, -⟩ | ⟨-, -, e⟩ | ⟨-, -, e⟩
  · rw [hf] at hfault; cases hfault
  · rw [e]; exact ⟨rfl, rfl⟩
  · rw [e, hp] at hleaves; cases hleaves

theorem readPhase_stamps {s t : State} (hf : s.draw.fault = false) (hp : s.ph = .read) (h : readPhase s = .next t)
    (hleaves : t.ph ≠ .read) : t.ts = s.now ∧ t.tsValid = true := by
  rcases readPhase_next h with ⟨hfault, -⟩ | ⟨-, ⟨d, q, -, -, htake⟩ | ⟨-, rfl⟩ | ⟨-, rfl⟩⟩
  · rw [hf] at hfault; cases hfault
  · obtain ⟨-, rfl⟩ := takeByte_next htake
    exact absurd hp hleaves
  · rcases endRead_cases s with ⟨-, e⟩ | ⟨-, e⟩ <;> rw [e] <;> exact ⟨rfl, rfl⟩
  · exact absurd hp hleaves

theorem timestamp_eventStep {s t : State} {e : Event} (he : e ≠ .reset) (h : EventStep s e t) :
    (t.ts = s.ts ∧ t.tsValid = s.tsValid) ∨
    (t.ts = s.now ∧ t.tsValid = true ∧ s.busy = true ∧ (s.ph = .write ∨ s.ph = .drain ∨ s.ph = .read)) := by
  cases h with
  | resets => exact absurd rfl he
  | command d r i u _ _ hu =>
    refine (timestamp_commandStep (exec_step hu)).imp_right fun ⟨hts, hv, hb, _, hp⟩ => ⟨hts, hv, hb, ?_⟩
    exact hp.imp_right (.imp And.left And.left)
  | writesOperand _ _ _ _ hframe => rw [hframe]; exact .inl ⟨rfl, rfl⟩
  | line a => rw [lineStep_eq]; exact .inl ⟨rfl, rfl⟩
  | _ => exact .inl ⟨rfl, rfl⟩

/-- Settles O9: the step of a command both ways, then the step of any agent. -/
theorem timestampMovesInThreePhasesOnly : Obligations.TimestampMovesInThreePhasesOnly := by
  refine ⟨fun i s t h => timestamp_commandStep (exec_step h), ?stamps,
    fun s t h he => timestamp_eventStep (s := afterEvent s) he (step_event h)⟩
  case stamps =>
    rintro i s t h ⟨p, hi⟩ hb hf hphase
    rw [exec_of_plan hi] at h
    rcases hphase with hp | ⟨hp, hleaves⟩ | ⟨hp, hleaves⟩
    · rw [transact_write hb hp] at h
      exact writePhase_stamps hf h
    · rw [transact_drain hb hp] at h
      injection h with h
      subst h
      exact drainPhase_stamps hf hp hleaves
    · rw [transact_read hb hp] at h
      exact readPhase_stamps hf hp h hleaves

/-! ## The idle block (42_sequencer R232) -/

/-- `t` is idle, with the results the last command left in `s`. -/
def IdleWithResultsOf (s t : State) : Prop :=
  t.busy = false ∧ t.ph = .idle ∧ t.done = s.done ∧ t.err = s.err ∧ t.exc = s.exc ∧ t.excCode = s.excCode ∧
  t.rxn = s.rxn ∧ t.resLen = s.resLen ∧ t.reqLen = s.reqLen ∧ t.repLen = s.repLen ∧ t.crcOut = s.crcOut ∧
  t.xport = s.xport

theorem idleWithResultsOf_self {s : State} (hb : s.busy = false) (hp : s.ph = .idle) : IdleWithResultsOf s s :=
  ⟨hb, hp, rfl, rfl, rfl, rfl, rfl, rfl, rfl, rfl, rfl, rfl⟩

/-- A step of an idle block keeps its results or is a write of CTRL that starts a command. -/
theorem idle_eventStep {s t : State} {e : Event} (hb : s.busy = false) (hp : s.ph = .idle) (he : e ≠ .reset)
    (h : EventStep s e t) :
    IdleWithResultsOf s t ∨ ∃ v, e = .host (.write .ctrl v) ∧ t.busy = true ∧ t.ph = .check := by
  have hself := idleWithResultsOf_self hb hp
  cases h with
  | starts v => exact .inr ⟨v, rfl, rfl, rfl⟩
  | resets => exact absurd rfl he
  | command _ _ _ _ hbusy | illegal _ _ _ hbusy | illegalLate _ _ _ hbusy => rw [hb] at hbusy; cases hbusy
  | writesOperand _ _ _ _ hframe => rw [hframe]; exact .inl hself
  | line a => rw [lineStep_eq]; exact .inl hself
  | _ => exact .inl hself

/-- Settles O15: a write of CTRL that leaves BUSY = 1 has START. -/
theorem idleUntilTheHostStarts : Obligations.IdleUntilTheHostStarts := by
  intro s t h hb hp he
  refine (idle_eventStep (s := afterEvent s) hb hp he (step_event h)).imp_right fun ⟨v, hv, hbusy, hcheck⟩ =>
    ⟨v, hv, ?_, hbusy, hcheck⟩
  by_contra hstart
  rw [Bool.not_eq_true] at hstart
  rw [step, hv] at h
  cases (writeCtrl_of_not_start hstart (afterEvent s)).symm.trans h
  exact absurd (hb.symm.trans hbusy) (by decide)

end Sys2Proof.Machine
end

section
/-! PROOFS. The statements of 43_operations: no step of a command stops, and one healthy transaction from START to its
result. -/

open Sys2Proof.Claims

namespace Sys2Proof.Machine

/-! ## No step of a command stops (43_operations R251) -/

/-- The step answers a next state, no fault and no refusal. -/
def GoesOn (o : Host.Outcome State Fault Refusal) : Prop := ∃ t, o = .next t

theorem goesOn_next (t : State) : GoesOn (.next t) := ⟨t, rfl⟩

theorem goesOn_onNext {f : State → State} {o : Host.Outcome State Fault Refusal} (h : GoesOn o) :
    GoesOn (onNext f o) := by
  obtain ⟨t, rfl⟩ := h
  exact ⟨f t, rfl⟩

/-- A read inside a buffer goes on as what is done with its bytes. -/
theorem goesOn_withRange {sp : Space} {off n : Nat} {s : State} {k : List Byte → Host.Outcome State Fault Refusal}
    (hin : off + n ≤ spaceSize sp) (hk : ∀ bs, bs.length = n → GoesOn (k bs)) : GoesOn (withRange sp off n s k) := by
  rw [withRange_eq (readRange_eq s hin)]
  exact hk _ (by rw [List.length_map, List.length_range])

section
variable {s : State}
  (hlen : s.reqLen.toNat ≤ Config.maxAdu ∧ s.repLen.toNat ≤ Config.maxAdu ∧ s.rxn.toNat ≤ s.repLen.toNat)
include hlen

/-- WRITE reads REQ within REQ_LEN. -/
theorem writePhase_goesOn : GoesOn (writePhase s) := by
  obtain ⟨hreq, -, -⟩ := hlen
  have hin : 0 + min s.draw.accepts s.reqLen.toNat ≤ spaceSize .req := by
    rw [Nat.zero_add]; exact (Nat.min_le_right ..).trans hreq
  cases hf : s.draw.fault with
  | true => rw [writePhase_fault hf]; exact goesOn_next _
  | false => rw [writePhase_eq hf (readRange_eq s hin)]; exact goesOn_next _

/-- The READ byte step is taken below REP_LEN only. -/
theorem readPhase_goesOn : GoesOn (readPhase s) := by
  obtain ⟨-, hrep, -⟩ := hlen
  unfold readPhase
  split
  · exact goesOn_next _
  · split
    · split
      · next hc =>
        obtain ⟨hlt, -⟩ := Bool.and_eq_true_iff.1 hc
        have hlt : s.rxn.toNat < s.repLen.toNat := of_decide_eq_true hlt
        rw [takeByte_eq (Nat.lt_of_lt_of_le hlt hrep)]
        exact goesOn_next _
      · split <;> exact goesOn_next _
    · split <;> exact goesOn_next _

/-- VCRC reads REP within RXN. -/
theorem vcrcPhase_goesOn : GoesOn (vcrcPhase s) := by
  obtain ⟨-, hrep, hrxn⟩ := hlen
  exact goesOn_withRange (by rw [Nat.zero_add]; exact hrxn.trans hrep) fun _ _ => goesOn_next _

end

section
variable {p : Plan} (hfits : PlanFits p) (s : State)
include hfits

theorem buildPhase_goesOn : GoesOn (buildPhase p s) := by
  have hdata := readRange_eq (sp := .wdata) (off := 0) s ((Nat.zero_add _).trans_le hfits.data)
  have hreq := hfits.request
  rw [buildPhase_eq hdata hfits.reply (by rw [request_length, readRange_length hdata]; omega)]
  exact goesOn_next _

/-- VID of a write reads the echo within both frames. -/
theorem vidPhase_goesOn : GoesOn (vidPhase p s) := by
  cases he : p.echo with
  | none => simp only [vidPhase, he]; exact goesOn_next _
  | some len =>
    obtain ⟨-, hreply, hrequest⟩ := hfits.echo len he
    have hrep := hfits.reply
    have hreq := hfits.request
    simp only [vidPhase, he, vidEcho]
    split
    · exact goesOn_next _
    · refine goesOn_withRange (by simp only [spaceSize]; omega) fun _ _ => ?_
      refine goesOn_withRange (by simp only [spaceSize]; omega) fun _ _ => ?_
      split <;> exact goesOn_next _

/-- EXTRACT reads REP within the predetermined reply, and RDATA holds what it takes. -/
theorem extractPhase_goesOn : GoesOn (extractPhase p s) := by
  have hrep := hfits.reply
  cases hr : p.result with
  | nothing => simp only [extractPhase, hr]; exact goesOn_next _
  | coils n =>
    obtain ⟨hn, hin⟩ := hfits.coils n hr
    simp only [extractPhase, hr]
    refine goesOn_withRange (by simp only [spaceSize]; omega) fun packed _ => ?_
    rw [deliverResult_eq (by rwa [unpackCoils_length])]
    exact goesOn_next _
  | bytes off n =>
    obtain ⟨hn, hin⟩ := hfits.bytes off n hr
    simp only [extractPhase, hr]
    refine goesOn_withRange (by simp only [spaceSize]; omega) fun bs hbs => ?_
    rw [deliverResult_eq (by rwa [hbs])]
    exact goesOn_next _

end

/-- Every phase of a Modbus operation goes on: the plan fits from BUILD on, and the length registers are in range. -/
theorem transact_goesOn {s : State} (h : BlockInv s) {i : Instr} {p : Plan} (hi : decode (commandWord s) = .ok i)
    (hpl : planOf i = some p) (t : BitVec 32) : GoesOn (transact p t s) := by
  obtain ⟨hreq, hrep, hrxn, -⟩ := h.lengths
  have hlen := And.intro hreq (And.intro hrep hrxn)
  have hfits : pastCheck s.ph = true → PlanFits p := fun hp => (planFits_of_blockInv h hi hpl hp).1
  cases hb : s.busy with
  | false => rw [transact_idle hb]; exact goesOn_next _
  | true =>
    cases hp : s.ph
    case build => rw [transact_build hb hp]; exact buildPhase_goesOn (hfits (by rw [hp]; rfl)) s
    case write => rw [transact_write hb hp]; exact writePhase_goesOn hlen
    case read => rw [transact_read hb hp]; exact readPhase_goesOn hlen
    case vcrc => rw [transact_vcrc hb hp]; exact vcrcPhase_goesOn hlen
    case vid => rw [transact_vid hb hp]; exact vidPhase_goesOn (hfits (by rw [hp]; rfl)) s
    case extract => rw [transact_extract hb hp]; exact extractPhase_goesOn (hfits (by rw [hp]; rfl)) s
    all_goals simp only [transact, hb, hp, if_true]; exact goesOn_next _

/-- An accepted CRC unit command has its COUNT within WDATA (42_sequencer R192). -/
theorem countField_le_of_accepted {i : Instr} (hpl : planOf i = none) (ha : accepted i = true) :
    i.countField.toNat ≤ Config.wdataDepth := by
  simp only [accepted, Instr.wellFormed, Bool.and_eq_true] at ha
  obtain ⟨⟨-, hcount⟩, -⟩ := ha
  rcases planOf_cases i with ⟨p, hp⟩ | ⟨n, rfl⟩ | ⟨n, rfl⟩
  · rw [hpl] at hp; cases hp
  all_goals exact of_decide_eq_true hcount

/-- CRCOP reads WDATA within the COUNT that CHECK let pass. -/
theorem crcCommand_goesOn {s : State} (h : BlockInv s) {i : Instr} (hi : decode (commandWord s) = .ok i)
    (hpl : planOf i = none) (run : List Byte → State → State) : GoesOn (crcCommand i.countField run s) := by
  cases hb : s.busy with
  | false => rw [crcCommand_idle hb]; exact goesOn_next _
  | true =>
    cases hp : s.ph
    case crcop =>
      obtain ⟨j, hj, ha, -⟩ := h.command (by rw [hp]; rfl)
      cases hi.symm.trans hj
      rw [crcCommand_crcop hb hp]
      exact goesOn_withRange ((Nat.zero_add _).trans_le (countField_le_of_accepted hpl ha)) fun _ _ => goesOn_next _
    all_goals simp only [crcCommand, hb, hp, if_true]; exact goesOn_next _

theorem exec_goesOn {s : State} (h : BlockInv s) {i : Instr} (hi : decode (commandWord s) = .ok i) :
    GoesOn (exec i s) := by
  rcases planOf_cases i with ⟨p, hpl⟩ | ⟨n, rfl⟩ | ⟨n, rfl⟩
  · rw [exec_of_plan hpl]
    exact transact_goesOn h hi hpl _
  · exact crcCommand_goesOn h hi rfl computeStep
  · exact crcCommand_goesOn h hi rfl validateStep

theorem runCommand_goesOn {s : State} (h : BlockInv s) : GoesOn (runCommand s) := by
  cases hi : decode (commandWord s) with
  | ok i => rw [runCommand_ok hi]; exact exec_goesOn h hi
  | error e => rw [runCommand_error hi]; exact goesOn_next _

/-- Settles O3: every index a phase reads or writes is in its buffer, by the lengths the invariant bounds and the plan
that fits; the draw is none of the invariant's. -/
theorem noCommandStepStops : Obligations.NoCommandStepStops := by
  refine fun s h => ⟨fun i hi => exec_goesOn h hi, fun d r => ?_⟩
  cases hb : s.busy with
  | true =>
    rw [sequencerStep_busy hb]
    exact goesOn_onNext (runCommand_goesOn (blockInv_congr h rfl rfl rfl))
  | false => exact ⟨clearCounters r s, if_neg (by simp [hb])⟩

/-! ## Reading a buffer whose bytes are known -/

theorem readByte_eq_getD {sp : Space} {n : Nat} {s : State} {bs : List Byte} (h : readRange sp 0 n s = some bs)
    {k : Nat} (hk : k < n) : readByte sp k s = bs.getD k 0 := by
  rw [List.getD_eq_getElem?_getD, readRange_getElem? h hk, Option.getD_some, Nat.zero_add]

/-- A shorter read of the same bytes. -/
theorem readRange_take {sp : Space} {off n m : Nat} {s : State} {bs : List Byte} (h : readRange sp off n s = some bs)
    (hm : m ≤ n) : readRange sp off m s = some (bs.take m) := by
  unfold readRange at h
  split at h
  · next hin =>
    rw [readRange_eq s (by omega), ← Option.some.inj h, ← List.map_take, List.take_range, Nat.min_eq_left hm]
  · cases h

/-! ## The healthy step of each phase (42_sequencer R192 to R229) -/

/-- A reply of the predetermined length with a valid CRC and the echo, or the identity, of the request of `p` over
`data` (42_sequencer R222 to R225). -/
structure HealthyReply (p : Plan) (data reply : List Byte) : Prop where
  length : reply.length = p.replyLen
  valid : validate reply = true
  echo : ∀ len, p.echo = some len → reply.take len = (p.request data).take len
  identity : p.echo = none → reply.take 2 = [p.slave, p.fcode]

/-- Past the gap, or before any TS, the gap step enters the next phase (42_sequencer R203, R204). -/
theorem gapStep_passes (enter : State → State) {s : State} (hg : s.tsValid = true → s.ts + 3000 ≤ s.now) :
    gapStep enter s = enter s := by
  rcases gapStep_cases enter s with ⟨-, e⟩ | ⟨hv, hn, -⟩ | ⟨hv, -, hn, -⟩
  · exact e
  · have := hg hv
    omega
  · exact absurd (hg hv) (Nat.not_le.2 hn)

section
variable {i : Instr} {p : Plan} (hi : planOf i = some p) {s : State}
include hi

theorem exec_check_passes (ha : accepted i = true) (hr : running .check s) (ho : s.xport = .opened) :
    exec i s = .next { s with ph := .flush } := by
  rw [exec_check hi hr, checkPhase_accepted hi ha, passesCheck, if_pos ho]

theorem exec_flush_passes (hr : running .flush s) (hf : s.draw.fault = false) :
    exec i s = .next { flushPort s with ph := .build } :=
  (flushEmptiesBothQueues i s ⟨p, hi⟩ hr).1 hf

theorem exec_build_passes (hfits : PlanFits p) (hr : running .build s) {data : List Byte}
    (hd : readRange .wdata 0 p.dataLen s = some data) :
    exec i s = .next { storeRequest p data s with crcAcc := crc16 (p.head data), crcOut := crc16 (p.head data),
                                                  ph := .gapw } := by
  have hreq := hfits.request
  rw [exec_of_plan hi, transact_build hr.1 hr.2,
    buildPhase_eq hd hfits.reply (by rw [request_length, readRange_length hd]; omega)]
  rfl

theorem exec_gapw_passes (hr : running .gapw s) (hg : s.tsValid = true → s.ts + 3000 ≤ s.now) :
    exec i s = .next { s with ph := .write } := by
  rw [exec_of_plan hi, transact_gapw hr.1 hr.2, gapwPhase, gapStep_passes _ hg]

theorem exec_write_passes (hr : running .write s) (hf : s.draw.fault = false) (hk : s.reqLen.toNat ≤ s.draw.accepts)
    {bs : List Byte} (hbs : readRange .req 0 s.reqLen.toNat s = some bs) :
    exec i s = .next { stamp (acceptBytes bs s) with ph := .drain } := by
  have hall : readRange .req 0 (min s.draw.accepts s.reqLen.toNat) s = some bs := by rwa [Nat.min_eq_right hk]
  rw [exec_of_plan hi, transact_write hr.1 hr.2, writePhase_eq hf hall, readRange_length hbs,
    if_neg (Nat.lt_irrefl _)]

theorem exec_drain_passes (hr : running .drain s) (hf : s.draw.fault = false) (hq : s.txq = []) :
    exec i s = .next { stamp s with ph := .gapr } := by
  rw [exec_of_plan hi, transact_drain hr.1 hr.2, drainPhase, if_neg (by simp [hf]), if_pos hq]

theorem exec_gapr_passes (hr : running .gapr s) (hg : s.tsValid = true → s.ts + 3000 ≤ s.now) :
    exec i s = .next (enterRead i.timeoutField s) := by
  rw [exec_of_plan hi, transact_gapr hr.1 hr.2, gaprPhase, gapStep_passes _ hg]

theorem exec_read_takes (hr : running .read s) (hf : s.draw.fault = false) (ht : s.draw.takesByte = true) {d : Byte}
    {q : List Byte} (hq : s.rxq = d :: q) (hl : s.rxn.toNat < s.repLen.toNat) (hrep : s.repLen.toNat ≤ Config.maxAdu) :
    exec i s = .next { s with rep := s.rep.setRange s.rxn.toNat [d], rxq := q, rxn := s.rxn + 1,
                              rxCount := s.rxCount + 1 } := by
  rw [exec_of_plan hi, transact_read hr.1 hr.2, readPhase_takes hf hq hl (.inr ht),
    takeByte_eq (Nat.lt_of_lt_of_le hl hrep)]

theorem exec_read_ends (hr : running .read s) (hf : s.draw.fault = false) (hfull : s.rxn = s.repLen) (hn : s.rxn ≠ 0) :
    exec i s = .next { stamp s with ph := .vcrc } := by
  rw [readEndsFullOrExpired i s ⟨p, hi⟩ hr hf (.inl hfull) (.inr (.inl (by rw [hfull]))), endsRead, if_neg hn]
  rfl

theorem exec_vcrc_passes (hr : running .vcrc s) {f : List Byte} (hf : readRange .rep 0 s.rxn.toNat s = some f)
    (hv : validate f = true) :
    exec i s = .next { s with crcAcc := crc16 (frameBody f), crcOut := crc16 (frameBody f), ph := .vid } := by
  obtain ⟨hlen, hcrc⟩ := validate_eq_true.1 hv
  rw [exec_vcrc ⟨p, hi⟩ hr hf]
  rcases checkFrame_cases f (fun t => { t with ph := .vid }) s with ⟨hshort, -⟩ | ⟨-, ⟨-, e⟩ | ⟨hne, -⟩⟩
  · omega
  · rw [e]
  · exact absurd hcrc hne

/-- VID accepts a whole reply that answers the request in REQ. -/
theorem exec_vid_passes (hfits : PlanFits p) (hr : running .vid s) {data reply : List Byte}
    (hdata : data.length = p.dataLen) (hreq : readRange .req 0 (p.request data).length s = some (p.request data))
    (hrep : readRange .rep 0 p.replyLen s = some reply) (hn : s.rxn.toNat = p.replyLen) (hfull : s.rxn = s.repLen)
    (hreply : HealthyReply p data reply) : exec i s = .next { s with ph := .extract } := by
  have hlong := hfits.replyLong
  have hnote : noteException s = s := noteException_of_not fun ⟨h5, _⟩ => by
    rw [← hn, h5] at hlong
    exact absurd hlong (by decide)
  rw [exec_vid hi hr]
  cases he : p.echo with
  | some len =>
    obtain ⟨-, hlrep, hlreq⟩ := hfits.echo len he
    have hgot := readRange_take hrep hlrep
    have hsent := readRange_take hreq (m := len) (by rw [request_length]; omega)
    simp only [vidPhase, he]
    rw [vidEcho_eq hgot hsent, if_pos ⟨hfull, hreply.echo len he⟩, hnote]
  | none =>
    have hgot := readRange_take hrep (m := 2) (by omega)
    rw [hreply.identity he] at hgot
    have hbyte : ∀ k, k < 2 → readByte .rep k s = readByte .req k s := fun k hk => by
      rw [readByte_eq_getD hgot hk, readByte_eq_getD hreq (by rw [request_length]; omega)]
      have : k = 0 ∨ k = 1 := by omega
      rcases this with rfl | rfl <;> rfl
    simp only [vidPhase, he, vidIdentity]
    rw [if_pos ⟨hbyte 0 (by decide), hbyte 1 (by decide), hfull⟩, hnote]

/-- EXTRACT of coils is rdCoils'. -/
theorem extracts_coils {n : Nat} (hres : p.result = .coils n) (hr : running .extract s) (hn : n ≤ 2000) :
    extracts i s (replyCoils n s) := by
  cases i <;> cases hi <;> cases hres
  exact extractOfCoils s _ _ _ _ hr hn

end

/-- What EXTRACT stored, byte by byte, where it fits RDATA. -/
theorem holds_of_extracts {i : Instr} {s : State} {result : List Byte} (h : extracts i s result)
    (hl : result.length ≤ 2000) :
    ∃ t, exec i s = .next t ∧ t = { completeOk s with rdata := t.rdata, resLen := t.resLen } ∧
      t.resLen.toNat = result.length ∧ ∀ k, k < result.length → readByte .rdata k t = result.getD k 0 := by
  obtain ⟨t, ht, hread, hframe, -⟩ := h
  refine ⟨t, ht, ?_, ?_, fun k hk => readByte_eq_getD hread hk⟩
  · rw [hframe]; rfl
  · rw [hframe]
    exact Nat.mod_eq_of_lt (by omega)

/-- EXTRACT completes the command, with the result of the reply in REP. -/
theorem exec_extract_passes {i : Instr} {p : Plan} (hi : planOf i = some p) (hfits : PlanFits p) {s : State}
    (hr : running .extract s) {reply : List Byte} (hrep : readRange .rep 0 p.replyLen s = some reply)
    (hres : s.resLen = 0) :
    ∃ t, exec i s = .next t ∧ t = { completeOk s with rdata := t.rdata, resLen := t.resLen } ∧
      holdsResult p.result reply t := by
  have hmax : p.replyLen ≤ 256 := hfits.reply
  have hbyte : ∀ {k}, k < p.replyLen → readByte .rep k s = reply.getD k 0 := readByte_eq_getD hrep
  cases hresult : p.result with
  | nothing =>
    refine ⟨completeOk s, ?_, rfl, hres⟩
    rw [exec_of_plan hi, transact_extract hr.1 hr.2, extractPhase, hresult]
  | coils n =>
    obtain ⟨hn, hin⟩ := hfits.coils n hresult
    have hlen := replyCoils_length n s
    obtain ⟨t, ht, hframe, hnum, hstored⟩ :=
      holds_of_extracts (extracts_coils hi hresult hr hn) (hlen.trans_le hn)
    rw [hlen] at hnum hstored
    refine ⟨t, ht, hframe, hnum, fun k hk => ?_⟩
    rw [hstored k hk, ← hbyte (show 3 + k / 8 < p.replyLen by omega)]
    simp [replyCoils, hk]
  | bytes off n =>
    obtain ⟨hn, hin⟩ := hfits.bytes off n hresult
    have hlen : ((List.range n).map fun k => readByte .rep (off + k) s).length = n := by simp
    obtain ⟨t, ht, hframe, hnum, hstored⟩ :=
      holds_of_extracts (extracts_bytes hi hresult hr (by omega)) (hlen.trans_le hn)
    rw [hlen] at hnum hstored
    refine ⟨t, ht, hframe, hnum, fun k hk => ?_⟩
    rw [hstored k hk, ← hbyte (show off + k < p.replyLen by omega)]
    simp [hk]

/-! ## The runs of a healthy transaction

A side condition on a state of a run is given by `by exact`, which waits until unification has found that state. -/

/-- A run goes on behind the turn of a running command, no strobe in the same step. -/
theorem run_turn {s u : State} {i : Instr} {rest : List Event} (ha : s.agenda = turn :: rest) (hb : s.busy = true)
    (hd : decode (commandWord s) = .ok i)
    (h : exec i { s with agenda := rest, moves := s.moves + 1, draw := {} } = .next u) (k : Nat) :
    Host.Core.run Sys2Proof.core (k + 1) s = Host.Core.run Sys2Proof.core k u := by
  obtain ⟨hturn, -⟩ := stepRunsTheCommandTheRegistersHold s i hd
  refine run_succ ?_ k
  rw [hturn _ _ rest ha hb, h]
  rfl

theorem takeEvent_transmit {s : State} {d : Byte} {q : List Byte} (ho : s.xport = .opened) (hq : s.txq = d :: q) :
    takeEvent (.line .transmit) s =
      .next { s with txq := q, wire := s.wire ++ [.tx (onWire s.cfgAct d) s.now] } :=
  congrArg _ (transmit_cons ho hq)

theorem takeEvent_deliver {s : State} (ho : s.xport = .opened) (hroom : s.rxq.length < Config.rxqDepth) (d : Byte) :
    takeEvent (.line (.deliver d)) s = .next { s with rxq := s.rxq ++ [d], wire := s.wire ++ [.rx d s.now] } := by
  refine congrArg _ ((deliver_opened ho d).trans ?_)
  rw [if_pos hroom]

/-- The line transmits all of TXQ, in order. -/
theorem run_transmits {s : State} {q : List Byte} {rest : List Event} (ho : s.xport = .opened) (hq : s.txq = q)
    (ha : s.agenda = List.replicate q.length (.line .transmit) ++ rest) :
    Host.Core.run Sys2Proof.core q.length s =
      .next { s with txq := [], wire := s.wire ++ q.map (fun d => .tx (onWire s.cfgAct d) s.now), agenda := rest,
                     moves := s.moves + q.length } := by
  induction q generalizing s with
  | nil =>
    rw [List.map_nil, List.append_nil]
    cases s
    cases hq
    cases ha
    rfl
  | cons d q ih =>
    rw [List.length_cons, run_event ha rfl (takeEvent_transmit (by exact ho) (by exact hq)), ih (by exact ho) rfl rfl]
    simp only [List.map_cons, List.append_assoc, List.singleton_append, Nat.add_assoc, Nat.add_comm 1]

/-- The line delivers bytes that fit RXQ, in order. -/
theorem run_delivers {s : State} {bs : List Byte} {rest : List Event} (ho : s.xport = .opened)
    (hroom : s.rxq.length + bs.length ≤ Config.rxqDepth)
    (ha : s.agenda = bs.map (fun d => .line (.deliver d)) ++ rest) :
    Host.Core.run Sys2Proof.core bs.length s =
      .next { s with rxq := s.rxq ++ bs, wire := s.wire ++ bs.map (fun d => .rx d s.now), agenda := rest,
                     moves := s.moves + bs.length } := by
  induction bs generalizing s with
  | nil =>
    rw [← show s.agenda = rest from ha, List.map_nil, List.append_nil, List.append_nil]
    rfl
  | cons d bs ih =>
    rw [List.length_cons] at hroom
    rw [List.length_cons, run_event ha rfl (takeEvent_deliver (by exact ho) (by simp only; omega) d),
      ih (by exact ho) (by simp only [List.length_append, List.length_singleton]; omega) rfl]
    simp only [List.map_cons, List.append_assoc, List.singleton_append, Nat.add_assoc, Nat.add_comm 1]

theorem readRange_storeRequest {p : Plan} {data : List Byte} (hq : (p.request data).length ≤ Config.maxAdu)
    (s : State) :
    readRange .req 0 (p.request data).length (storeRequest p data s) = some (p.request data) :=
  readRange_writeRange (sp := .req) s hq

/-- The command as WRITE leaves it at time `now`: the request is in REQ and on its way in TXQ. -/
def handsOver (p : Plan) (data : List Byte) (now : Nat) (s : State) : State :=
  { storeRequest p data (start s) with
    crcAcc := crc16 (p.head data), crcOut := crc16 (p.head data), rxq := [], txq := p.request data,
    txCount := s.txCount + BitVec.ofNat 64 (p.request data).length, now := now, ts := now, tsValid := true,
    ph := .drain }

/-- The command as READ leaves it, at time `now`, with a whole reply taken: the wire shows what was in TXQ, sent before,
and then the reply. -/
def takesReply (timeout : BitVec 32) (reply : List Byte) (now : Nat) (s : State) : State :=
  { s with
    ts := s.now, tsValid := true, now := now, t0 := now, dl := timeout.toNat * 1000, ph := .read, txq := [], rxq := [],
    wire := s.wire ++ s.txq.map (fun d => .tx (onWire s.cfgAct d) s.now) ++ reply.map (fun d => .rx d now),
    rep := s.rep.setRange s.rxn.toNat reply, rxn := s.rxn + BitVec.ofNat 9 reply.length,
    rxCount := s.rxCount + BitVec.ofNat 64 reply.length }

/-- The request of `p` over `data` is in REQ and on its way, the transport open, and nothing received yet. -/
structure AwaitsReply (p : Plan) (data : List Byte) (s : State) : Prop where
  drains : running .drain s
  opened : s.xport = .opened
  request : readRange .req 0 (p.request data).length s = some (p.request data)
  emptyQueue : s.rxq = []
  unread : s.rxn = 0
  repLen : s.repLen = BitVec.ofNat 9 p.replyLen
  noResult : s.resLen = 0

theorem awaitsReply_handsOver {p : Plan} {data : List Byte} {s : State} (ho : s.xport = .opened)
    (hq : (p.request data).length ≤ Config.maxAdu) (now : Nat) (rest : List Event) (n : Nat) :
    AwaitsReply p data { handsOver p data now s with agenda := rest, moves := n, draw := {} } :=
  ⟨⟨rfl, rfl⟩, ho, (readRange_of_buffer rfl rfl).trans (readRange_storeRequest hq (start s)), rfl, rfl, rfl, rfl⟩

section
variable {i : Instr} {p : Plan} (hi : planOf i = some p)
include hi

/-- From START to the end of WRITE. -/
theorem run_handsOver {s : State} {data : List Byte} {tw : Nat} {rest : List Event}
    (hd : decode (commandWord s) = .ok i) (hacc : accepted i = true) (hfits : PlanFits p)
    (hdata : readRange .wdata 0 p.dataLen s = some data) (hb : s.busy = false) (ho : s.xport = .opened)
    (hgap : s.tsValid = true → s.ts + 3000 ≤ tw) (hq : (p.request data).length ≤ Config.maxAdu)
    (ha : s.agenda = [.host (.write .ctrl 1), turn, turn, turn, .time tw, turn, turn] ++ rest) :
    Host.Core.run Sys2Proof.core 7 s =
      .next { handsOver p data tw s with agenda := rest, moves := s.moves + 7, draw := {} } := by
  have hlen : (BitVec.ofNat 9 (p.request data).length).toNat = (p.request data).length := toNat_ofNat_of_le_maxAdu hq
  have hreq := readRange_storeRequest hq (start s)
  rw [← hlen] at hreq
  refine (run_event ha rfl (takeEvent_start (by exact hb)) 6).trans ?_
  refine (run_turn rfl rfl (by exact hd) (exec_check_passes hi hacc ⟨rfl, rfl⟩ (by exact ho)) 5).trans ?_
  refine (run_turn rfl rfl (by exact hd) (exec_flush_passes hi ⟨rfl, rfl⟩ rfl) 4).trans ?_
  refine (run_turn rfl rfl (by exact hd) (exec_build_passes hi hfits ⟨rfl, rfl⟩ (by exact hdata)) 3).trans ?_
  refine (run_event rfl rfl rfl 2).trans ?_
  refine (run_turn rfl rfl (by exact hd) (exec_gapw_passes hi ⟨rfl, rfl⟩ (by exact hgap)) 1).trans ?_
  refine (run_turn rfl rfl (by exact hd) (exec_write_passes hi ⟨rfl, rfl⟩ rfl (by exact hlen.trans_le hq)
    (by exact (readRange_of_buffer rfl rfl).trans hreq)) 0).trans ?_
  rfl

/-- From DRAIN with nothing left to transmit into READ. -/
theorem run_entersRead {s : State} {tr : Nat} {rest : List Event} (hr : running .drain s)
    (hd : decode (commandWord s) = .ok i) (hq : s.txq = []) (hgap : s.now + 3000 ≤ tr)
    (ha : s.agenda = [turn, .time tr, turn] ++ rest) :
    Host.Core.run Sys2Proof.core 3 s =
      .next { s with ts := s.now, tsValid := true, now := tr, t0 := tr, dl := i.timeoutField.toNat * 1000, ph := .read,
                     agenda := rest, moves := s.moves + 3, draw := {} } := by
  obtain ⟨hb, hp⟩ := hr
  refine (run_turn ha hb hd (exec_drain_passes hi ⟨hb, hp⟩ rfl (by exact hq)) 2).trans ?_
  refine (run_event rfl rfl rfl 1).trans ?_
  exact run_turn rfl (by exact hb) (by exact hd) (exec_gapr_passes hi ⟨by exact hb, rfl⟩ (by exact fun _ => hgap)) 0

/-- READ takes all of RXQ, in order, up to REP_LEN. -/
theorem run_readBytes {s : State} {bs : List Byte} {rest : List Event} (hr : running .read s)
    (hd : decode (commandWord s) = .ok i) (hdraw : s.draw = {}) (hq : s.rxq = bs)
    (hl : s.rxn.toNat + bs.length ≤ s.repLen.toNat) (hrep : s.repLen.toNat ≤ Config.maxAdu)
    (ha : s.agenda = List.replicate bs.length turn ++ rest) :
    Host.Core.run Sys2Proof.core bs.length s =
      .next { s with rep := s.rep.setRange s.rxn.toNat bs, rxq := [], rxn := s.rxn + BitVec.ofNat 9 bs.length,
                     rxCount := s.rxCount + BitVec.ofNat 64 bs.length, agenda := rest,
                     moves := s.moves + bs.length } := by
  induction bs generalizing s with
  | nil =>
    rw [List.length_nil, BitVec.add_zero, BitVec.add_zero]
    cases s
    cases hq
    cases ha
    rfl
  | cons d bs ih =>
    rw [List.length_cons] at hl
    have hmax : s.repLen.toNat ≤ 256 := hrep
    have hsucc : (s.rxn + 1).toNat = s.rxn.toNat + 1 := by
      rw [BitVec.toNat_add, show (1 : BitVec 9).toNat = 1 from rfl]; omega
    have hcount : ∀ {w} (x : BitVec w), x + 1 + BitVec.ofNat w bs.length = x + BitVec.ofNat w (bs.length + 1) :=
      fun x => by rw [BitVec.ofNat_add, BitVec.add_assoc, BitVec.add_comm (BitVec.ofNat _ bs.length)]; rfl
    rw [List.length_cons, run_turn ha hr.1 hd (exec_read_takes hi (by exact hr) rfl rfl (by exact hq)
      (show s.rxn.toNat < s.repLen.toNat by omega) (by exact hrep)),
      ih (by exact hr) (by exact hd) rfl rfl (by simp only [hsucc]; omega) (by exact hrep) rfl]
    simp only [hsucc, hcount, Memory.setRange, hdraw, Nat.add_assoc, Nat.add_comm 1]

/-- From the end of WRITE to the last byte of the reply. -/
theorem run_takesReply {s : State} {reply : List Byte} {tr : Nat} {rest : List Event} (hr : running .drain s)
    (hd : decode (commandWord s) = .ok i) (ho : s.xport = .opened) (hgap : s.now + 3000 ≤ tr) (hrxq : s.rxq = [])
    (hl : s.rxn.toNat + reply.length ≤ s.repLen.toNat) (hrep : s.repLen.toNat ≤ Config.maxAdu)
    (ha : s.agenda = List.replicate s.txq.length (.line .transmit) ++ ([turn, .time tr, turn] ++
      (reply.map (fun d => .line (.deliver d)) ++ (List.replicate reply.length turn ++ rest)))) :
    Host.Core.run Sys2Proof.core (s.txq.length + (3 + (reply.length + reply.length))) s =
      .next { takesReply i.timeoutField reply tr s with
              agenda := rest, moves := s.moves + s.txq.length + 3 + reply.length + reply.length, draw := {} } := by
  have hroom : s.rxq.length + reply.length ≤ Config.rxqDepth := by
    have hmax : s.repLen.toNat ≤ 256 := hrep
    have hdepth : 256 ≤ Config.rxqDepth := Nat.le_add_right ..
    rw [hrxq, List.length_nil]
    omega
  refine (run_add (run_transmits ho rfl ha) _).trans ?_
  refine (run_add (run_entersRead hi (by exact hr) (by exact hd) rfl (by exact hgap) rfl) _).trans ?_
  refine (run_add (run_delivers (by exact ho) (by exact hroom) rfl) _).trans ?_
  refine (run_readBytes hi ⟨by exact hr.1, rfl⟩ (by exact hd) rfl (by exact congrArg (· ++ reply) hrxq) (by exact hl)
    (by exact hrep) rfl).trans ?_
  rfl

/-- From the end of READ with a whole healthy reply to the command's result. -/
theorem run_acceptsReply {s : State} {data reply : List Byte} {rest : List Event} (hfits : PlanFits p)
    (hr : running .read s) (hd : decode (commandWord s) = .ok i) (hdata : data.length = p.dataLen)
    (hreq : readRange .req 0 (p.request data).length s = some (p.request data))
    (hrep : readRange .rep 0 p.replyLen s = some reply) (hn : s.rxn.toNat = p.replyLen) (hfull : s.rxn = s.repLen)
    (hres : s.resLen = 0) (hreply : HealthyReply p data reply) (ha : s.agenda = [turn, turn, turn, turn] ++ rest) :
    ∃ t, Host.Core.run Sys2Proof.core 4 s = .next t ∧
      t = { completeOk s with ts := s.now, tsValid := true, crcAcc := crc16 (frameBody reply),
                              crcOut := crc16 (frameBody reply), rdata := t.rdata, resLen := t.resLen, agenda := rest,
                              moves := s.moves + 4, draw := {} } ∧
      holdsResult p.result reply t := by
  obtain ⟨hb, hp⟩ := hr
  have hlong := hfits.replyLong
  have hne : s.rxn ≠ 0 := fun h0 => by
    rw [← hn, h0] at hlong
    exact absurd hlong (by decide)
  have hrxn : readRange .rep 0 s.rxn.toNat s = some reply := by rwa [hn]
  obtain ⟨t, ht, hframe, hresult⟩ := exec_extract_passes hi hfits
    (s := { s with ts := s.now, tsValid := true, crcAcc := crc16 (frameBody reply), crcOut := crc16 (frameBody reply),
                   agenda := rest, moves := s.moves + 4, draw := {}, ph := .extract })
    ⟨hb, rfl⟩ ((readRange_of_buffer rfl rfl).trans hrep) hres
  refine ⟨t, ?_, hframe, hresult⟩
  refine (run_turn ha hb hd (exec_read_ends hi ⟨hb, hp⟩ rfl (by exact hfull) (by exact hne)) 3).trans ?_
  refine (run_turn rfl (by exact hb) (by exact hd) (exec_vcrc_passes hi ⟨by exact hb, rfl⟩
    (by exact (readRange_of_buffer rfl rfl).trans hrxn) hreply.valid) 2).trans ?_
  refine (run_turn rfl (by exact hb) (by exact hd) (exec_vid_passes hi hfits ⟨by exact hb, rfl⟩ hdata
    (by exact (readRange_of_buffer rfl rfl).trans hreq) (by exact (readRange_of_buffer rfl rfl).trans hrep)
    (by exact hn) (by exact hfull) hreply) 1).trans ?_
  exact run_turn rfl (by exact hb) (by exact hd) (by exact ht) 0

/-- From the end of WRITE to the command's result, for a healthy reply. -/
theorem run_answered {s : State} {data reply : List Byte} {tr : Nat} {rest : List Event} (hfits : PlanFits p)
    (hd : decode (commandWord s) = .ok i) (hdata : data.length = p.dataLen) (hs : AwaitsReply p data s)
    (hgap : s.now + 3000 ≤ tr) (hreply : HealthyReply p data reply)
    (ha : s.agenda = List.replicate s.txq.length (.line .transmit) ++ ([turn, .time tr, turn] ++
      (reply.map (fun d => .line (.deliver d)) ++ (List.replicate reply.length turn ++
        ([turn, turn, turn, turn] ++ rest))))) :
    ∃ t, Host.Core.run Sys2Proof.core (s.txq.length + (3 + (reply.length + reply.length)) + 4) s = .next t ∧
      t = { completeOk (takesReply i.timeoutField reply tr s) with
            crcAcc := t.crcAcc, crcOut := t.crcOut, ts := tr, rdata := t.rdata, resLen := t.resLen, agenda := rest,
            moves := t.moves, draw := {} } ∧
      holdsResult p.result reply t := by
  obtain ⟨hr, ho, hreq, hrxq, hrxn, hrepLen, hres⟩ := hs
  have hlen := hreply.length
  have hnum : s.repLen.toNat = p.replyLen := by rw [hrepLen]; exact toNat_ofNat_of_le_maxAdu hfits.reply
  have hfull : s.rxn + BitVec.ofNat 9 reply.length = s.repLen := by
    rw [hrxn, hlen, hrepLen]; exact BitVec.zero_add _
  have hrep : readRange .rep 0 p.replyLen (takesReply i.timeoutField reply tr s) = some reply := by
    rw [takesReply, hrxn, ← hlen]
    exact readRange_writeRange (sp := .rep) s (hlen.trans_le hfits.reply)
  have htaken := run_takesReply hi hr hd ho hgap hrxq (by rw [hrxn, hlen, hnum]; exact (Nat.zero_add _).le)
    (hnum.trans_le hfits.reply) ha
  obtain ⟨t, hdone, hframe, hresult⟩ := run_acceptsReply hi
    (s := { takesReply i.timeoutField reply tr s with
            agenda := [turn, turn, turn, turn] ++ rest,
            moves := s.moves + s.txq.length + 3 + reply.length + reply.length, draw := {} })
    hfits ⟨hr.1, rfl⟩ hd hdata ((readRange_of_buffer rfl rfl).trans hreq) ((readRange_of_buffer rfl rfl).trans hrep)
    ((congrArg BitVec.toNat hfull).trans hnum) hfull hres hreply rfl
  refine ⟨t, (run_add htaken 4).trans hdone, ?_, hresult⟩
  rw [hframe]
  rfl

end

/-- Settles O17: START to the end of WRITE, then the answer; each register the statement names is the one the two runs
leave. -/
theorem healthyTransactionCompletes : Obligations.HealthyTransactionCompletes := by
  intro s i p data reply tw tr rest hd hi hacc hdata hb ho hgapw hgapr hlen hvalid hanswer ha
  have hfits : PlanFits p := by
    simp only [accepted, Bool.and_eq_true] at hacc
    exact planFits hi hacc.1
  have hdlen := readRange_length hdata
  have hq : (p.request data).length ≤ Config.maxAdu := by
    rw [request_length, hdlen]
    exact hfits.request
  have hsteps : (healthyAgenda (p.request data).length reply tw tr).length =
      7 + ((p.request data).length + (3 + (reply.length + reply.length)) + 4) := by
    simp only [healthyAgenda, List.length_append, List.length_replicate, List.length_map, List.length_cons,
      List.length_nil]
    omega
  simp only [healthyAgenda, List.append_assoc] at ha
  have hsent := run_handsOver hi hd hacc hfits hdata hb ho hgapw hq ha
  have hreply : HealthyReply p data reply :=
    ⟨hlen, hvalid, fun len he => by simpa only [he] using hanswer, fun he => by simpa only [he] using hanswer⟩
  obtain ⟨t, hdone, hframe, hresult⟩ := run_answered hi (rest := rest) hfits (by exact hd) hdlen
    (awaitsReply_handsOver ho hq tw _ (s.moves + 7)) hgapr hreply rfl
  refine ⟨t, ?_, congrArg State.busy hframe, congrArg State.done hframe, congrArg State.err hframe,
    congrArg State.exc hframe, congrArg State.ph hframe, (congrArg State.xport hframe).trans ho,
    congrArg State.txCount hframe, congrArg State.rxCount hframe, congrArg State.ts hframe,
    congrArg State.tsValid hframe, congrArg State.rxq hframe, congrArg State.txq hframe, congrArg State.agenda hframe,
    congrArg State.wire hframe, hresult⟩
  rw [hsteps, run_add hsent]
  exact hdone

end Sys2Proof.Machine
end

section
/-! PROOFS. The statements of 60_exceptions: no command writes what the host and the environment own, and every error
ends its command. -/

namespace Sys2Proof.Machine

/-! ## What no command writes (60_exceptions R285) -/

/-- Settles O13, by cases on what a step of a command can do: each names the fields it writes, VID those of exception
detection. -/
theorem commandsLeaveOperandsAlone : Obligations.CommandsLeaveOperandsAlone := by
  intro i s t h
  cases exec_step h with
  | vidFails | vidPasses => rw [noteException_eq]; exact ⟨rfl, rfl, rfl, rfl, rfl, rfl, rfl⟩
  | _ => exact ⟨rfl, rfl, rfl, rfl, rfl, rfl, rfl⟩

/-! ## Every error ends its command (60_exceptions R283) -/

theorem noteException_resLen (s : State) : (noteException s).resLen = s.resLen := by rw [noteException_eq]

/-- A step of a command keeps or clears ERR, or it is `raise`, from a state with the old transport and result length. -/
theorem err_commandStep {i : Instr} {s t : State} (h : CommandStep i s t) :
    t.err = s.err ∨ t.err = none ∨ ∃ k u, t = raise k u ∧ u.xport = s.xport ∧ u.resLen = s.resLen := by
  cases h with
  | checkFails | initFails | portFault | gapEarly | writesShort | readTimeout | crcShort | crcFails =>
    exact .inr (.inr ⟨_, _, rfl, rfl, rfl⟩)
  | vidFails => exact .inr (.inr ⟨_, _, rfl, noteException_xport s, noteException_resLen s⟩)
  | vidPasses => rw [noteException_eq]; exact .inl rfl
  | starts | checkEmpty | extractsNothing | extracts | crcop => exact .inr (.inl rfl)
  | _ => exact .inl rfl

theorem invalidates_iff (k : ErrorKind) : k.invalidates = true ↔ k = .systemCall ∨ k = .consistency := by
  cases k <;> decide

/-- Settles O14: a running command has ERR = 0, so an error comes from `raise`, before any result is offered. -/
theorem everyErrorEndsItsCommand : Obligations.EveryErrorEndsItsCommand := by
  intro s i t k hinv hb _ h hk
  obtain ⟨hnone, -, hres⟩ := hinv.quiet hb
  rcases err_commandStep (exec_step h) with herr | herr | ⟨j, u, rfl, hport, hlen⟩
  · rw [herr, hnone] at hk; cases hk
  · rw [herr] at hk; cases hk
  · obtain rfl : j = k := Option.some.inj hk
    refine ⟨rfl, rfl, rfl, hlen.trans hres, fun hkind => ?_, fun hs hc => ?_⟩
    · have hclose := (invalidates_iff j).2 hkind
      exact ⟨if_pos hclose, if_pos hclose, if_pos hclose⟩
    · have hkeep : ¬ j.invalidates = true := fun hj => ((invalidates_iff j).1 hj).elim hs hc
      exact (if_neg hkeep).trans hport

end Sys2Proof.Machine
end
